-- ==== Sys2Proof/Word.lean ====
section
/-! DEFINITION. The bit vectors of the TW-480: what the manual adds, shifts, masks or sends as a word. -/

namespace Sys2Proof

/-- A byte of a link, of a payload or of the store image. -/
abbrev Byte := BitVec 8

/-- A 16-bit word: a scan number, a frame check, a notice argument. -/
abbrev Word16 := BitVec 16

/-- A scan time, an unsigned 32-bit count of scans (00_scope, Units; R18). -/
abbrev Scan := BitVec 32

/-- A fine time in sixteenths of a scan, an unsigned 36-bit value (R29). -/
abbrev T16 := BitVec 36

/-- A count of the train context, unsigned 32-bit, wrapping (R48). -/
abbrev Count32 := BitVec 32

/-- The twelve axle flags as the bit set of R184. -/
abbrev AxleFlags := BitVec 16

/-- The vehicle flags as the bit set of R184. -/
abbrev VehicleFlags := BitVec 32

end Sys2Proof
end

