-- ==== Sys2Proof/Syntax.lean ====
section
/-! DEFINITION. The commands of the part: one constructor for each row of spec/opcode_table.json, in its order.
Operands are what the event carries from outside. -/

namespace Sys2Proof

/-- A step of the part (95_what_each_step_holds). A management request carries no operand of its own: its tag, code
and payload are those of the head of the Request Buffer (R167). -/
inductive Instr where
  /-- POWER_ON_RESET (R125): power-on, or assertion of the reset input. -/
  | powerOnReset
  /-- START_UP_LOAD (R125). `readable`: the store could complete the read of the image (R124). -/
  | startUpLoad (readable : Bool)
  /-- FRAME_BYTE_TIMEOUT (R14): no byte for 2 ms before a frame is complete. -/
  | frameByteTimeout
  /-- SCAN_FRAME (R20): a complete frame of kind 0x01. -/
  | scanFrame (payload : List Byte) (check : Word16)
  /-- WHEEL_FRAME (R28): a complete frame of kind 0x02. -/
  | wheelFrame (payload : List Byte) (check : Word16)
  /-- REQUEST_FRAME (R166): a complete frame of kind 0x03. -/
  | requestFrame (payload : List Byte) (check : Word16)
  /-- SILENCE_TIMEOUT (R23): 20 ms of the part's clock since the last scan that advanced T. -/
  | silenceTimeout
  /-- QUIET_TIMER_EXPIRY (R55). -/
  | quietTimerExpiry
  /-- ID_WAIT_EXPIRY (R150) of the waiting vehicle of this sequence number. -/
  | idWaitExpiry (sequence : Nat)
  /-- VEHICLE_RELEASE (R154). -/
  | vehicleRelease
  /-- SUMMARY_PLACED (R62). -/
  | summaryPlaced
  /-- READ_STATUS (R168). -/
  | readStatus
  /-- READ_TABLE (R169). -/
  | readTable
  /-- READ_NOTICES (R171). -/
  | readNotices
  /-- CLEAR_NOTICES (R171). -/
  | clearNotices
  /-- WRITE_GEOMETRY (R7, R8, R10). -/
  | writeGeometry
  /-- WRITE_CHANNEL (R115). -/
  | writeChannel
  /-- WRITE_SPEED_CURVE (R116). -/
  | writeSpeedCurve
  /-- WRITE_LIMITS (R117). -/
  | writeLimits
  /-- COMMIT_CALIBRATION (R121). `wordTaken`: the store takes the counter word. -/
  | commitCalibration (wordTaken : Bool)
  /-- COMMIT_COMPLETE (R122). `verified`: the image was written and verified. -/
  | commitComplete (verified : Bool)
  /-- WRITE_SETTINGS (R170). -/
  | writeSettings
  /-- WRITE_TYPE (R128). -/
  | writeType
  /-- APPEND_CONSIST (R146). -/
  | appendConsist
  /-- CLEAR_CONSIST (R148). -/
  | clearConsist
  /-- WRITE_LEVEL (R171, R163). -/
  | writeLevel
  /-- WRITE_COUNTER (R174). -/
  | writeCounter
  /-- READ_COUNTERS (R177). -/
  | readCounters
  /-- RESET_COUNTERS (R177). -/
  | resetCounters
  /-- ABORT_TRAIN (R58). -/
  | abortTrain
  /-- RESTART (R172). -/
  | restart
  /-- UNKNOWN_REQUEST (R167). -/
  | unknownRequest
  /-- CAL_EN_CHANGE (R118). `level`: the new level. -/
  | calEnChange (level : Bool)
  /-- RL_HOLD_ASSERT (R158). -/
  | rlHoldAssert
  /-- RL_HOLD_RELEASE (R158). `wordTaken` as at COMMIT_CALIBRATION, for a request that the freed place lets
  execute in this step (R160). -/
  | rlHoldRelease (wordTaken : Bool)
  /-- FRAME_END (R159). `wordTaken` as at RL_HOLD_RELEASE. -/
  | frameEnd (wordTaken : Bool)
  /-- OVERSIZED_PAYLOAD_LENGTH (R14): a frame header declaring this payload length. -/
  | oversizedPayloadLength (length : Word16)
  /-- UNDEFINED_KIND_FRAME (R15): a complete frame of this kind. -/
  | undefinedKindFrame (kind : Byte) (payload : List Byte) (check : Word16)
  deriving DecidableEq, Repr

end Sys2Proof
end

