-- ==== Sys2Proof/Decode.lean ====
section
/-! DEFINITION. The command a word spells by the bits of spec/opcode_table.json. No row of the table gives bits
("fields" is empty in every row), so every word is refused. -/

namespace Sys2Proof

/-- The command that the `nbits` bits of `w` spell: none, since no row gives bits (notes/assumptions/21.md). -/
def decodeTableWord (_nbits _w : Nat) : Option Instr := none

end Sys2Proof
end

