-- ==== Sys2Proof/Machine/State.lean ====
section
/-! DEFINITION. The state of the part: what each block owns (00_scope, Block overview), as plain data, and its values
right after reset. -/

namespace Sys2Proof.Machine

/-! ## Names of the manual -/

/-- R126. -/
inductive PartState where
  | starting | notReady | ready
  deriving DecidableEq, Repr

/-- R49, section 4.2. -/
inductive TrainState where
  | idle | running | standing | ending | ignoring
  deriving DecidableEq, Repr

/-- R3. -/
inductive Direction where
  | eastbound | westbound
  deriving DecidableEq, Repr

/-- A detector pair (R1). -/
inductive Pair where
  | west | east
  deriving DecidableEq, Repr

/-- R1, R184. -/
inductive Detector where
  | w1 | w2 | e1 | e2
  deriving DecidableEq, Repr

/-- The sense of a passage (R34). -/
inductive Sense where
  | eastward | westward
  deriving DecidableEq, Repr

/-- R2. -/
inductive Rail where
  | north | south
  deriving DecidableEq, Repr

/-- R47. -/
inductive EndReason where
  | quiet | request | axleOverrun | lengthLimit | timeBase
  deriving DecidableEq, Repr

/-- The status of a sample (R15, R26). -/
inductive SampleStatus where
  | ok | overrange | opened
  deriving DecidableEq, Repr

/-- The condition of a zone estimate (R91, R97, R99; codes of R184). -/
inductive Condition where
  | valid | noWheel | timing | gap | fault | short | missed | shared | motion | saturated
  deriving DecidableEq, Repr

/-- R43. -/
inductive Lock where
  | none | coarse | fine
  deriving DecidableEq, Repr

/-- R45. -/
inductive PaceSource where
  | own | running
  deriving DecidableEq, Repr

/-- R81. -/
inductive Presence where
  | empty | occupied
  deriving DecidableEq, Repr

/-- R89. -/
inductive WindowState where
  | pending | opened | awaitingOff | done
  deriving DecidableEq, Repr

/-- The kind of a vehicle (R127). -/
inductive VehicleKind where
  | wagon | loco | other
  deriving DecidableEq, Repr

/-- R117. -/
inductive LimitsOrigin where
  | default | written | loaded
  deriving DecidableEq, Repr

/-- The status of a response (R167). -/
inductive Status where
  | ok | late | malformed | badIndex | badValue | locked | busyTrain | busyCommit | full | noTrain | notReady
  | storeFault
  deriving DecidableEq, Repr

/-- The sixteen notice kinds in the order of their numbers 1 to 16 (R164). -/
inductive NoticeKind where
  | trainStarted | calEnChanged | frameRejected | scanGap | trackSyncLost | eventDiscarded | detectorSuspect
  | countMismatch | phantomWheel | channelFault | trainNotWeighed | trainAborted | mgmtOverrun | storeFault
  | statsFull | recordBacklog
  deriving DecidableEq, Repr

/-- The events a counter can select (R174). -/
inductive CounterEvent where
  | none | axlesWeighed | zoneRejects | phantoms | scansLost | framesRejected | vehiclesReleased
  | unmatchedVehicles | axleQueueOccupancy | recordQueueOccupancy | holdScans | axlesInBand
  deriving DecidableEq, Repr

/-- The twelve axle flags (R77), in the order of their bits (R184). -/
inductive AxleFlag where
  | paceUnlocked | accel | dynamic | overrange | underzero | speedLow | overspeed | zeroSuspect | reweighed
  | disturbed | unweighed | calPending
  deriving DecidableEq, Repr

/-- The vehicle flags that follow the axle flags, in the order of their bits from 12 upward (R184). -/
inductive VehicleFlag where
  | unmatched | spacingUncertain | incomplete | overload | underTare | sideImbalance | endImbalance | idTimeout
  | idForced | idMissing | typeMismatch
  deriving DecidableEq, Repr

/-! ## Track Link Receiver and Detector Pair Units -/

/-- R18. `silence`: the silence timer runs. -/
structure Receiver where
  time : Scan
  lastScan : Word16
  synced : Bool
  syncScan : Scan
  silence : Bool
  deriving DecidableEq, Repr

/-- R30. -/
structure PairUnit where
  pending : Option (Detector × T16)
  rockCount : Nat
  deriving DecidableEq, Repr

/-! ## Pace Tracker -/

/-- R40. -/
structure PaceTracker where
  history : List Nat
  coarse : Nat
  fine : Nat
  lock : Lock
  running : Option Nat
  deriving DecidableEq, Repr

/-! ## Train Controller -/

/-- The train context (R47) with its counts (R48). -/
structure TrainContext where
  number : Word16
  direction : Direction
  startScan : Scan
  endScan : Option Scan
  epoch : Count32
  stood : Bool
  disturbed : Bool
  endReason : Option EndReason
  ignoredBefore : Count32
  passagesDuringEnding : Bool
  entries : Count32
  backouts : Count32
  exits : Count32
  returns : Count32
  returnedAfterRelease : Count32
  unexpected : Count32
  ignored : Count32
  axlesDiscarded : Count32
  vehiclesDiscarded : Count32
  detailsDropped : Count32
  consistUsed : Count32
  consistLate : Count32
  consistUnused : Count32
  vehiclesReleased : Count32
  vehiclesWithGross : Count32
  grossTotal : Count32
  payloadTotal : Count32
  deriving DecidableEq, Repr

/-- R49. `quiet`: the quiet timer, stopped or the scan at which it expires (R55). -/
structure TrainControl where
  state : TrainState
  ctx : Option TrainContext
  nextNumber : Word16
  quiet : Option Scan
  ignoredBetween : Count32
  deriving DecidableEq, Repr

/-! ## Axle Tracker -/

/-- A decided zone estimate in an axle record (R66, R76). -/
structure Estimate where
  condition : Condition
  mass : Option Nat
  deriving DecidableEq, Repr

/-- R66. `estimates` is indexed by the channel of the zone and rail (R2); none is undecided. -/
structure AxleRecord where
  ordinal : Nat
  entryTime : T16
  entryPace : Nat
  paceSource : PaceSource
  speed : Nat
  epoch : Count32
  generation : Nat
  spacing : Option Nat
  finalized : Bool
  exitTime : Option T16
  exitPace : Option Nat
  estimates : Vector (Option Estimate) 8
  north : Option Nat
  south : Option Nat
  axleLoad : Option Nat
  flags : AxleFlags
  vehicle : Option Nat
  deriving DecidableEq, Repr

/-- The ordinal bounds (R64) and the Axle Queue (R65). -/
structure AxleTracker where
  highest : Nat
  firstOn : Nat
  lastOn : Nat
  lowestHeld : Nat
  queue : List AxleRecord
  deriving DecidableEq, Repr

/-! ## Zone Units -/

/-- R81. The partial block is `blockCount` scans of sum `blockSum`; `run` is the presence run: its count and the scan
time of its first scan. -/
structure Channel where
  baseline : Int
  zeroFault : Bool
  blockCount : Nat
  blockSum : Int
  presence : Presence
  run : Option (Nat × Scan)
  deriving DecidableEq, Repr

/-- What a window holds for one rail (R89). -/
structure RailWindow where
  sum : Int
  count : Nat
  fault : Bool
  onSeen : Bool
  offSeen : Bool
  closeBase : Option Int
  decided : Option Condition
  deriving DecidableEq, Repr

/-- R89. `start` and `stop` are s and e. -/
structure Window where
  ordinal : Nat
  generation : Nat
  start : Scan
  stop : Scan
  inScan : Scan
  outScan : Scan
  state : WindowState
  gap : Bool
  north : RailWindow
  south : RailWindow
  deriving DecidableEq, Repr

/-- One zone: its two channels (R81) and its Window List (R89). -/
structure ZoneUnit where
  north : Channel
  south : Channel
  windows : List Window
  deriving DecidableEq, Repr

/-! ## Calibration Unit and store -/

/-- The closed interval [a, b] of a zone (R1, R5). -/
structure ZoneSpan where
  a : Nat
  b : Nat
  deriving DecidableEq, Repr

/-- R5. Z is the length of `zones`. -/
structure GeometryRecord where
  fScan : Nat
  dW : Nat
  dE : Nat
  cE : Nat
  minAxleSpacing : Nat
  zones : List ZoneSpan
  deriving DecidableEq, Repr

/-- R115. -/
structure ChannelRecord where
  zeroCal : Int
  gain : Nat
  zeroRange : Nat
  threshold : Nat
  deriving DecidableEq, Repr

/-- A point (v, K) of the Speed Curve (R108, R116). -/
structure CurvePoint where
  v : Nat
  k : Nat
  deriving DecidableEq, Repr

/-- The twelve Limits in field-number order (R117). -/
structure Limits where
  trimEighths : Nat
  nMin : Nat
  minZones : Nat
  spreadLimit : Nat
  tol : Nat
  nOn : Nat
  nOff : Nat
  vMin : Nat
  vMax : Nat
  accelLimit : Nat
  lrLimit : Nat
  endLimit : Nat
  deriving DecidableEq, Repr

/-- The working metrological tables and marks (R5, R115 to R117, R119, R120). `committing` is COMMITTING with the tag
of the commit request whose place is reserved (R121). -/
structure Calibration where
  geometry : Option GeometryRecord
  channels : Vector (Option ChannelRecord) 8
  curve : Option (Vector CurvePoint 8)
  limits : Limits
  origin : LimitsOrigin
  calPending : Bool
  counter : Nat
  committing : Option Byte
  deriving DecidableEq, Repr

/-- The image of the calibration store (R124): never written; the bytes of a completed write; a write under way with
the bytes it captured (R121); or an image left failing its check by an interrupted or failed write (R122, R123). -/
inductive StoreImage where
  | blank
  | held (bytes : List Byte)
  | writing (bytes : List Byte)
  | damaged
  deriving DecidableEq, Repr

/-- The non-volatile store: the counter word, blank when never written, and the image (R120, R124). -/
structure Store where
  word : Option Nat
  image : StoreImage
  deriving DecidableEq, Repr

/-! ## Vehicle Assembler and Consist Unit -/

/-- A Type Table entry (R127). The axle count n is one more than the number of spacings. -/
structure VehicleType where
  code : Nat
  kind : VehicleKind
  tolerance : Nat
  gapMin : Nat
  tare : Option Nat
  maxGross : Option Nat
  spacings : List Nat
  deriving DecidableEq, Repr

/-- What a vehicle holds only while COMPLETE (R129, R137 to R139). -/
structure VehicleTotals where
  gross : Option Nat
  nTotal : Option Nat
  sTotal : Option Nat
  net : Option Nat
  speed : Nat
  flags : VehicleFlags
  deriving DecidableEq, Repr

/-- R129. -/
inductive VehicleState where
  | formed
  | complete (totals : VehicleTotals)
  deriving DecidableEq, Repr

/-- The resolution of a vehicle's identity (R149). A WAITING vehicle holds its expiry (R150), a PRESENT one the
identity. -/
inductive Resolution where
  | unresolved
  | waiting (expiry : Scan)
  | present (identity : List Byte)
  | absent
  deriving DecidableEq, Repr

/-- A vehicle of the Assembly List (R129), with what the Consist Unit keeps of it (R149, R151). -/
structure Vehicle where
  sequence : Nat
  first : Nat
  count : Nat
  typeCode : Nat
  kind : VehicleKind
  tare : Option Nat
  maxGross : Option Nat
  unmatched : Bool
  uncertain : Bool
  state : VehicleState
  resolution : Resolution
  idFlags : VehicleFlags
  deriving DecidableEq, Repr

/-- R127, R129. -/
structure Assembler where
  types : Vector (Option VehicleType) 32
  list : List Vehicle
  nextSeq : Nat
  firstFree : Nat
  deriving DecidableEq, Repr

/-- A Consist List entry (R145). -/
structure ConsistEntry where
  identity : List Byte
  typeCode : Option Nat
  kind : Option VehicleKind
  deriving DecidableEq, Repr

/-! ## Record Link Transmitter -/

/-- An axle of a vehicle record (R142, R183). -/
structure AxleEntry where
  ordinal : Nat
  axleLoad : Option Nat
  north : Option Nat
  south : Option Nat
  speed : Nat
  flags : AxleFlags
  deriving DecidableEq, Repr

/-- A vehicle record (R142, R154). -/
structure VehicleRecord where
  train : Word16
  sequence : Nat
  typeCode : Nat
  kind : VehicleKind
  count : Nat
  first : Nat
  gross : Option Nat
  net : Option Nat
  nTotal : Option Nat
  sTotal : Option Nat
  speed : Nat
  flags : VehicleFlags
  identity : Option (List Byte)
  axles : List AxleEntry
  deriving DecidableEq, Repr

/-- A train summary (R62): the context as it stands, the adjustment counter and CAL_PENDING. -/
structure Summary where
  ctx : TrainContext
  counter : Nat
  calPending : Bool
  deriving DecidableEq, Repr

/-- An entry of the Record Queue (R155). -/
inductive QueueRecord where
  | vehicle (r : VehicleRecord)
  | summary (r : Summary)
  deriving DecidableEq, Repr

/-- An axle detail record (R80, R183). `estimates` are those of channels 0 to 2Z − 1 in channel order. -/
structure AxleDetail where
  train : Word16
  ordinal : Nat
  exitTime : T16
  entryPace : Nat
  exitPace : Nat
  paceSource : PaceSource
  spacing : Option Nat
  estimates : List Estimate
  north : Option Nat
  south : Option Nat
  axleLoad : Option Nat
  flags : AxleFlags
  deriving DecidableEq, Repr

/-- A response (R167). -/
structure Response where
  tag : Byte
  code : Byte
  status : Status
  payload : List Byte
  deriving DecidableEq, Repr

/-- A frame of the Record Link: kind, payload and check (R178, R179). -/
structure OutFrame where
  kind : Byte
  payload : List Byte
  check : Word16
  deriving DecidableEq, Repr

/-- R155 to R158. `sending` is none while the transmitter is IDLE and the frame while it is SENDING. -/
structure RecordLink where
  records : List QueueRecord
  details : List AxleDetail
  responses : List Response
  sending : Option OutFrame
  deriving DecidableEq, Repr

/-! ## Notice Unit, Management Unit, Statistics Unit -/

/-- The entry of one kind in the notice register (R161). -/
structure NoticeEntry where
  pending : Bool
  count : Nat
  lastArg : Word16
  deriving DecidableEq, Repr

/-- The notice register (R161) and the Level Table (R163), kind n at index n − 1. -/
structure NoticeUnit where
  register : Vector NoticeEntry 16
  levels : Vector Nat 16
  deriving DecidableEq, Repr

/-- A request of the Request Buffer (R166). -/
structure Request where
  tag : Byte
  code : Byte
  payload : List Byte
  deriving DecidableEq, Repr

/-- The Operating Settings (R170). -/
structure Settings where
  quietTime : Nat
  idWait : Nat
  splitGap : Nat
  axleDetail : Bool
  deriving DecidableEq, Repr

/-- The selection of a counter (R174). -/
structure Selection where
  event : CounterEvent
  threshold : Nat
  invert : Bool
  edge : Bool
  low : Nat
  high : Nat
  deriving DecidableEq, Repr

/-- A statistics counter (R174). -/
structure Counter where
  value : Nat
  overflow : Bool
  previous : Bool
  selection : Selection
  deriving DecidableEq, Repr

/-! ## The whole state -/

/-- The state of the part, and the queue of the commands that are waiting. -/
structure State where
  part : PartState
  calEn : Bool
  hold : Bool
  rx : Receiver
  west : PairUnit
  east : PairUnit
  pace : PaceTracker
  train : TrainControl
  axles : AxleTracker
  zones : Vector ZoneUnit 4
  cal : Calibration
  store : Store
  asm : Assembler
  consist : List ConsistEntry
  link : RecordLink
  notices : NoticeUnit
  requests : List Request
  settings : Settings
  counters : Vector Counter 4
  pending : List Instr
  deriving DecidableEq, Repr

/-- The machine stops with a fault: never. The manual gives no condition that stops the part, so there is no
constructor; safe. -/
inductive Fault where
  deriving DecidableEq, Repr

/-- Why a command has no meaning. -/
inductive Refusal where
  /-- Raised by an arm of `exec` for a row without a meaning; no arm raises it. Safe. -/
  | notModelled (mnemonic : String)
  deriving DecidableEq, Repr

/-! ## Values after reset -/

/-- R18. -/
def Receiver.reset : Receiver :=
  { time := 0, lastScan := 0, synced := false, syncScan := 0, silence := false }

/-- R30. -/
def PairUnit.reset : PairUnit := { pending := none, rockCount := 0 }

/-- R40, and the state a lock reset leaves (R46). -/
def PaceTracker.reset : PaceTracker :=
  { history := [], coarse := 0, fine := 0, lock := .none, running := none }

/-- R49. -/
def TrainControl.reset : TrainControl :=
  { state := .idle, ctx := none, nextNumber := 1, quiet := none, ignoredBetween := 0 }

/-- R64, R65: also the values at a train start. -/
def AxleTracker.reset : AxleTracker :=
  { highest := 0, firstOn := 1, lastOn := 0, lowestHeld := 1, queue := [] }

/-- R81, the column "After power-on or the reset input". -/
def Channel.reset : Channel :=
  { baseline := 0, zeroFault := false, blockCount := 0, blockSum := 0, presence := .empty, run := none }

/-- R81, R89. -/
def ZoneUnit.reset : ZoneUnit := { north := Channel.reset, south := Channel.reset, windows := [] }

/-- The defaults of R117. -/
def Limits.default : Limits :=
  { trimEighths := 1, nMin := 8, minZones := 2, spreadLimit := 26, tol := 12, nOn := 4, nOff := 4, vMin := 50
    vMax := 800, accelLimit := 4, lrLimit := 38, endLimit := 64 }

/-- R6, R115 to R117, R119; the counter as notes/assumptions/8.md says. -/
def Calibration.reset : Calibration :=
  { geometry := none, channels := #v[none, none, none, none, none, none, none, none], curve := none
    limits := Limits.default, origin := .default, calPending := false, counter := 0, committing := none }

/-- A store that has never been written (R124; DESIGN CHOICE, notes/assumptions/6.md). -/
def Store.blank : Store := { word := none, image := .blank }

/-- R127, R129. -/
def Assembler.reset : Assembler :=
  { types := Vector.replicate 32 none, list := [], nextSeq := 1, firstFree := 1 }

/-- R165. -/
def RecordLink.reset : RecordLink := { records := [], details := [], responses := [], sending := none }

/-- R165: mark clear, count 0, last argument 0. -/
def NoticeEntry.reset : NoticeEntry := { pending := false, count := 0, lastArg := 0 }

/-- The default levels of R164, kinds 1 to 16 in order. -/
def NoticeUnit.defaultLevels : Vector Nat 16 := #v[4, 6, 2, 3, 7, 2, 5, 3, 2, 5, 6, 7, 4, 7, 1, 5]

/-- R165. -/
def NoticeUnit.reset : NoticeUnit :=
  { register := Vector.replicate 16 NoticeEntry.reset, levels := NoticeUnit.defaultLevels }

/-- R170, R173. -/
def Settings.reset : Settings := { quietTime := 8000, idWait := 4000, splitGap := 2200, axleDetail := false }

/-- R173. -/
def Selection.reset : Selection :=
  { event := .none, threshold := 0, invert := false, edge := false, low := 0, high := 0 }

/-- R173. -/
def Counter.reset : Counter := { value := 0, overflow := false, previous := false, selection := Selection.reset }

/-- The machine right after reset: STARTING, every volatile state at its initial value (R125, R173), the inputs and the
store as notes/assumptions/6.md and 7.md say, no command waiting. -/
def State.reset : State :=
  { part := .starting
    calEn := false
    hold := false
    rx := Receiver.reset
    west := PairUnit.reset
    east := PairUnit.reset
    pace := PaceTracker.reset
    train := TrainControl.reset
    axles := AxleTracker.reset
    zones := #v[ZoneUnit.reset, ZoneUnit.reset, ZoneUnit.reset, ZoneUnit.reset]
    cal := Calibration.reset
    store := Store.blank
    asm := Assembler.reset
    consist := []
    link := RecordLink.reset
    notices := NoticeUnit.reset
    requests := []
    settings := Settings.reset
    counters := #v[Counter.reset, Counter.reset, Counter.reset, Counter.reset]
    pending := [] }

end Sys2Proof.Machine
end

