-- ==== Sys2Proof/Machine/Codes.lean ====
section
/-! DEFINITION. The codes of coded fields (R164, R178, R181, R184). -/

namespace Sys2Proof.Machine

def SampleStatus.ofCode : Nat → Option SampleStatus
  | 0 => some .ok
  | 1 => some .overrange
  | 2 => some .opened
  | _ => none

def Detector.code : Detector → Nat
  | .w1 => 1
  | .w2 => 2
  | .e1 => 3
  | .e2 => 4

def Detector.ofCode : Nat → Option Detector
  | 1 => some .w1
  | 2 => some .w2
  | 3 => some .e1
  | 4 => some .e2
  | _ => none

def Pair.code : Pair → Nat
  | .west => 1
  | .east => 2

def Direction.code : Direction → Nat
  | .eastbound => 1
  | .westbound => 2

def VehicleKind.code : VehicleKind → Nat
  | .wagon => 1
  | .loco => 2
  | .other => 3

def VehicleKind.ofCode : Nat → Option VehicleKind
  | 1 => some .wagon
  | 2 => some .loco
  | 3 => some .other
  | _ => none

def PaceSource.code : PaceSource → Nat
  | .own => 0
  | .running => 1

def Condition.code : Condition → Nat
  | .valid => 0
  | .noWheel => 1
  | .timing => 2
  | .gap => 3
  | .fault => 4
  | .short => 5
  | .missed => 6
  | .shared => 7
  | .motion => 8
  | .saturated => 9

def Status.code : Status → Nat
  | .ok => 0
  | .late => 1
  | .malformed => 2
  | .badIndex => 3
  | .badValue => 4
  | .locked => 5
  | .busyTrain => 6
  | .busyCommit => 7
  | .full => 8
  | .noTrain => 9
  | .notReady => 10
  | .storeFault => 11

def EndReason.code : EndReason → Nat
  | .quiet => 1
  | .request => 2
  | .axleOverrun => 3
  | .lengthLimit => 4
  | .timeBase => 5

/-- STARTING has no code: no request is taken then (R126). -/
def PartState.code : PartState → Nat
  | .starting => 0
  | .notReady => 1
  | .ready => 2

def TrainState.code : TrainState → Nat
  | .idle => 0
  | .running => 1
  | .standing => 2
  | .ending => 3
  | .ignoring => 4

def Lock.code : Lock → Nat
  | .none => 0
  | .coarse => 1
  | .fine => 2

def LimitsOrigin.code : LimitsOrigin → Nat
  | .default => 0
  | .written => 1
  | .loaded => 2

def CounterEvent.code : CounterEvent → Nat
  | .none => 0
  | .axlesWeighed => 1
  | .zoneRejects => 2
  | .phantoms => 3
  | .scansLost => 4
  | .framesRejected => 5
  | .vehiclesReleased => 6
  | .unmatchedVehicles => 7
  | .axleQueueOccupancy => 8
  | .recordQueueOccupancy => 9
  | .holdScans => 10
  | .axlesInBand => 11

def CounterEvent.ofCode : Nat → Option CounterEvent
  | 0 => some .none
  | 1 => some .axlesWeighed
  | 2 => some .zoneRejects
  | 3 => some .phantoms
  | 4 => some .scansLost
  | 5 => some .framesRejected
  | 6 => some .vehiclesReleased
  | 7 => some .unmatchedVehicles
  | 8 => some .axleQueueOccupancy
  | 9 => some .recordQueueOccupancy
  | 10 => some .holdScans
  | 11 => some .axlesInBand
  | _ => Option.none

/-- The index of a kind in the register: its number less one (R164). -/
def NoticeKind.index : NoticeKind → Fin 16
  | .trainStarted => 0
  | .calEnChanged => 1
  | .frameRejected => 2
  | .scanGap => 3
  | .trackSyncLost => 4
  | .eventDiscarded => 5
  | .detectorSuspect => 6
  | .countMismatch => 7
  | .phantomWheel => 8
  | .channelFault => 9
  | .trainNotWeighed => 10
  | .trainAborted => 11
  | .mgmtOverrun => 12
  | .storeFault => 13
  | .statsFull => 14
  | .recordBacklog => 15

/-- The FRAME_REJECTED arguments (R15, R21, R184). -/
def reasonCheck : Nat := 1
def reasonKind : Nat := 2
def reasonLength : Nat := 3
def reasonChannels : Nat := 4
def reasonField : Nat := 5
def reasonDuplicate : Nat := 6
def reasonStale : Nat := 7

/-- The TRACK_SYNC_LOST arguments. -/
def lostByJump : Nat := 1
def lostBySilence : Nat := 2

/-- The STORE_FAULT arguments. -/
def faultCommit : Nat := 1
def faultStartUp : Nat := 2

/-- The request codes (R181). -/
def codeReadStatus : Byte := 0x01
def codeReadTable : Byte := 0x02
def codeReadNotices : Byte := 0x03
def codeClearNotices : Byte := 0x04
def codeWriteGeometry : Byte := 0x10
def codeWriteChannel : Byte := 0x11
def codeWriteSpeedCurve : Byte := 0x12
def codeWriteLimits : Byte := 0x13
def codeCommitCalibration : Byte := 0x14
def codeWriteSettings : Byte := 0x20
def codeWriteType : Byte := 0x21
def codeAppendConsist : Byte := 0x22
def codeClearConsist : Byte := 0x23
def codeWriteLevel : Byte := 0x24
def codeWriteCounter : Byte := 0x30
def codeReadCounters : Byte := 0x31
def codeResetCounters : Byte := 0x32
def codeAbortTrain : Byte := 0x40
def codeRestart : Byte := 0x41

/-- Every request code of R181; any other is unknown (R167). -/
def knownCodes : List Byte :=
  [codeReadStatus, codeReadTable, codeReadNotices, codeClearNotices, codeWriteGeometry, codeWriteChannel,
    codeWriteSpeedCurve, codeWriteLimits, codeCommitCalibration, codeWriteSettings, codeWriteType,
    codeAppendConsist, codeClearConsist, codeWriteLevel, codeWriteCounter, codeReadCounters, codeResetCounters,
    codeAbortTrain, codeRestart]

/-- Outbound kinds (R178). -/
def kindVehicle : Byte := 0x81
def kindAxleDetail : Byte := 0x82
def kindSummary : Byte := 0x83
def kindNotice : Byte := 0x84
def kindResponse : Byte := 0x85

end Sys2Proof.Machine
end

