-- ==== Sys2Proof/Machine/Flags.lean ====
section
/-! DEFINITION. The axle flags and vehicle flags as bit sets (R77, R139, R180, R184). -/

namespace Sys2Proof.Machine

/-- The bit of an axle flag (R184). -/
def AxleFlag.bit : AxleFlag → Nat
  | .paceUnlocked => 0
  | .accel => 1
  | .dynamic => 2
  | .overrange => 3
  | .underzero => 4
  | .speedLow => 5
  | .overspeed => 6
  | .zeroSuspect => 7
  | .reweighed => 8
  | .disturbed => 9
  | .unweighed => 10
  | .calPending => 11

/-- The bit of a vehicle flag (R184). -/
def VehicleFlag.bit : VehicleFlag → Nat
  | .unmatched => 12
  | .spacingUncertain => 13
  | .incomplete => 14
  | .overload => 15
  | .underTare => 16
  | .sideImbalance => 17
  | .endImbalance => 18
  | .idTimeout => 19
  | .idForced => 20
  | .idMissing => 21
  | .typeMismatch => 22

/-- The set of one axle flag. -/
def AxleFlag.mask (f : AxleFlag) : AxleFlags := 1#16 <<< f.bit

/-- The set of one vehicle flag. -/
def VehicleFlag.mask (f : VehicleFlag) : VehicleFlags := 1#32 <<< f.bit

/-- The set of one axle flag when the condition holds, else the empty set. -/
def axleFlagIf (c : Bool) (f : AxleFlag) : AxleFlags := if c then f.mask else 0

/-- The set of one vehicle flag when the condition holds, else the empty set. -/
def vehicleFlagIf (c : Bool) (f : VehicleFlag) : VehicleFlags := if c then f.mask else 0

/-- An axle flag is in a set. -/
def hasAxleFlag (fs : AxleFlags) (f : AxleFlag) : Bool := fs.getLsbD f.bit

/-- A vehicle flag is in a set. -/
def hasVehicleFlag (fs : VehicleFlags) (f : VehicleFlag) : Bool := fs.getLsbD f.bit

/-- The union of a vehicle's axles' flags, in bits 0 to 11 of the vehicle flags (R139, R184). -/
def unionAxleFlags (axles : List AxleRecord) : VehicleFlags :=
  axles.foldl (fun acc a => acc ||| a.flags.setWidth 32) 0

end Sys2Proof.Machine
end

