-- ==== Sys2Proof/Machine/Wire.lean ====
section
/-! DEFINITION. Bytes and words on the two links and in the store image: big-endian fields (00_scope, Link data) and the
16-bit ones'-complement frame check (R179). -/

namespace Sys2Proof.Machine

/-- The unsigned big-endian value of a byte string. -/
def be (bytes : List Byte) : Nat :=
  bytes.foldl (fun acc b => acc * 256 + b.toNat) 0

/-- The unsigned field of `len` bytes at offset `off`. -/
def natAt (p : List Byte) (off len : Nat) : Nat :=
  be ((p.drop off).take len)

/-- The signed (two's complement) field of `len` bytes at offset `off`. -/
def intAt (p : List Byte) (off len : Nat) : Int :=
  let v := natAt p off len
  if v < 2 ^ (8 * len - 1) then (v : Int) else (v : Int) - 2 ^ (8 * len)

/-- The byte at offset `off` (0 past the end; every use checks the length first). -/
def byteAt (p : List Byte) (off : Nat) : Byte :=
  (p.drop off).headD 0

/-- An unsigned value as `n` big-endian bytes. -/
def natBytes : Nat → Nat → List Byte
  | 0, _ => []
  | n + 1, v => natBytes n (v / 256) ++ [BitVec.ofNat 8 v]

/-- A signed value as `n` big-endian bytes in two's complement. -/
def intBytes (n : Nat) (v : Int) : List Byte :=
  natBytes n (v % (2 ^ (8 * n) : Int)).toNat

/-- An optional field in its full width, every bit zero when it is absent (R180). -/
def optBytes (n : Nat) (v : Option Nat) : List Byte :=
  natBytes n (v.getD 0)

/-- A bit as a byte of 0 or 1. The spec states these codes for axle_detail and the sync state (R181, R184). DESIGN CHOICE: so
too invert and edge (notes/assumptions/9.md), and the pending mark, the overflow flag and the CAL_PENDING of a summary
(notes/assumptions/26.md). -/
def boolByte (b : Bool) : Byte := if b then 1 else 0

/-- A presence or mark byte: bit i is set when the i-th condition holds. -/
def bitsByte (bits : List Bool) : Byte :=
  BitVec.ofNat 8 (bits.foldr (fun b acc => 2 * acc + b.toNat) 0)

/-- The sum of two words with end-around carry (R179). -/
def addCarry (a b : Word16) : Word16 :=
  let t := a.toNat + b.toNat
  BitVec.ofNat 16 (t % 65536 + t / 65536)

/-- The ones'-complement sum of a byte string taken in pairs, a zero byte appended when their number is odd (R179). -/
def wordSum : List Byte → Word16
  | [] => 0
  | [a] => a ++ (0 : Byte)
  | a :: b :: rest => addCarry (a ++ b) (wordSum rest)

/-- The check the sender transmits: the complement of the sum (R179). -/
def frameCheck (bytes : List Byte) : Word16 := ~~~ wordSum bytes

/-- The receiver's test: the words and the check word sum to 0xFFFF (R179). -/
def checkPasses (bytes : List Byte) (check : Word16) : Bool :=
  addCarry (wordSum bytes) check == 0xFFFF#16

/-- The bytes the check of a frame covers: kind, payload length, payload (R178, R179). -/
def checkedBytes (kind : Byte) (payload : List Byte) : List Byte :=
  kind :: natBytes 2 payload.length ++ payload

/-- The start delimiter (R178). -/
def startDelimiter : Byte := 0xA5

/-- The whole envelope of a frame (R178). -/
def envelope (kind : Byte) (payload : List Byte) (check : Word16) : List Byte :=
  startDelimiter :: checkedBytes kind payload ++ natBytes 2 check.toNat

/-- Inbound kinds (R178). -/
def kindScan : Byte := 0x01
def kindWheel : Byte := 0x02
def kindRequest : Byte := 0x03

/-- The largest payload of any inbound kind (R178, R180). -/
def maxInboundPayload : Nat := 34

end Sys2Proof.Machine
end

