-- ==== Sys2Proof/Machine/Layouts.lean ====
section
/-! DEFINITION. Byte layouts of what the part writes: tables as READ TABLE answers them and the store image holds them
(R181, R182, R185), and the payloads of the Record Link (R182, R183). -/

namespace Sys2Proof.Machine

/-! ## Tables -/

/-- The WRITE GEOMETRY layout (R181). -/
def geometryBytes (g : GeometryRecord) : List Byte :=
  natBytes 1 g.zones.length ++ natBytes 2 g.fScan ++ natBytes 2 g.dW ++ natBytes 2 g.dE ++ natBytes 2 g.cE ++
    natBytes 2 g.minAxleSpacing ++ g.zones.flatMap fun z => natBytes 2 z.a ++ natBytes 2 z.b

/-- The WRITE CHANNEL layout without the channel byte (R181, R185). -/
def channelBytes (c : ChannelRecord) : List Byte :=
  intBytes 3 c.zeroCal ++ natBytes 4 c.gain ++ natBytes 3 c.zeroRange ++ natBytes 3 c.threshold

/-- The WRITE SPEED CURVE layout (R181). -/
def curveBytes (c : Vector CurvePoint 8) : List Byte :=
  c.toList.flatMap fun p => natBytes 2 p.v ++ natBytes 2 p.k

/-- The WRITE LIMITS layout (R181). -/
def limitsBytes (l : Limits) : List Byte :=
  natBytes 1 l.trimEighths ++ natBytes 1 l.nMin ++ natBytes 1 l.minZones ++ natBytes 1 l.spreadLimit ++
    natBytes 1 l.tol ++ natBytes 1 l.nOn ++ natBytes 1 l.nOff ++ natBytes 2 l.vMin ++ natBytes 2 l.vMax ++
    natBytes 1 l.accelLimit ++ natBytes 1 l.lrLimit ++ natBytes 1 l.endLimit

/-- The WRITE SETTINGS layout (R181). -/
def settingsBytes (s : Settings) : List Byte :=
  natBytes 2 s.quietTime ++ natBytes 2 s.idWait ++ natBytes 2 s.splitGap ++ [boolByte s.axleDetail]

/-- The axle count n of a type (R127). -/
def VehicleType.axles (t : VehicleType) : Nat := t.spacings.length + 1

/-- The WRITE TYPE layout without the index (R181). -/
def typeBytes (t : VehicleType) : List Byte :=
  natBytes 1 t.code ++ natBytes 1 t.kind.code ++ natBytes 1 t.axles ++ natBytes 2 t.tolerance ++
    natBytes 2 t.gapMin ++ [bitsByte [t.tare.isSome, t.maxGross.isSome]] ++ optBytes 4 t.tare ++
    optBytes 4 t.maxGross ++ t.spacings.flatMap (natBytes 2)

/-- The APPEND CONSIST layout (R181). -/
def consistBytes (e : ConsistEntry) : List Byte :=
  [bitsByte [e.typeCode.isSome, e.kind.isSome]] ++ optBytes 1 e.typeCode ++
    optBytes 1 (e.kind.map VehicleKind.code) ++ e.identity

/-- The WRITE COUNTER layout without the counter byte (R181); the codes of invert and edge are notes/assumptions/9.md. -/
def selectionBytes (x : Selection) : List Byte :=
  natBytes 1 x.event.code ++ natBytes 1 x.threshold ++ [boolByte x.invert, boolByte x.edge] ++ natBytes 2 x.low ++
    natBytes 2 x.high

/-- The marker and record of one channel in the store image (R185). -/
def imageChannelBytes : Option ChannelRecord → List Byte
  | some c => 1 :: channelBytes c
  | none => 0 :: List.replicate 13 0

/-- The store image (R185): the tables in order and the check of R179 over everything before it (R124). -/
def imageBytes (g : GeometryRecord) (cs : Vector (Option ChannelRecord) 8) (c : Vector CurvePoint 8) (l : Limits) :
    List Byte :=
  let body := geometryBytes g ++ cs.toList.flatMap imageChannelBytes ++ curveBytes c ++ limitsBytes l
  body ++ natBytes 2 (frameCheck body).toNat

/-! ## Payloads of the Record Link -/

/-- RESPONSE (R180). -/
def responsePayload (r : Response) : List Byte :=
  r.tag :: r.code :: natBytes 1 r.status.code ++ r.payload

/-- NOTICE (R180): the kind's number, the count, the last argument. -/
def noticePayload (k : NoticeKind) (e : NoticeEntry) : List Byte :=
  natBytes 1 (k.index.val + 1) ++ natBytes 1 e.count ++ natBytes 2 e.lastArg.toNat

/-- One axle of a VEHICLE payload (R183). -/
def axleEntryBytes (a : AxleEntry) : List Byte :=
  natBytes 2 a.ordinal ++ [bitsByte [a.axleLoad.isSome, a.north.isSome, a.south.isSome]] ++ optBytes 4 a.axleLoad ++
    optBytes 2 a.north ++ optBytes 2 a.south ++ natBytes 2 a.speed ++ natBytes 2 a.flags.toNat

/-- VEHICLE (R183). -/
def vehiclePayload (v : VehicleRecord) : List Byte :=
  natBytes 2 v.train.toNat ++ natBytes 2 v.sequence ++ natBytes 1 v.typeCode ++ natBytes 1 v.kind.code ++
    natBytes 1 v.count ++ natBytes 2 v.first ++
    [bitsByte [v.gross.isSome, v.net.isSome, v.nTotal.isSome && v.sTotal.isSome]] ++ optBytes 4 v.gross ++
    optBytes 4 v.net ++ optBytes 4 v.nTotal ++ optBytes 4 v.sTotal ++ natBytes 2 v.speed ++
    natBytes 4 v.flags.toNat ++ natBytes 1 (v.identity.getD []).length ++ v.identity.getD [] ++
    v.axles.flatMap axleEntryBytes

/-- AXLE_DETAIL (R183); the mass of an estimate is present exactly when its condition is VALID (R180). -/
def detailPayload (d : AxleDetail) : List Byte :=
  natBytes 2 d.train.toNat ++ natBytes 2 d.ordinal ++ natBytes 5 d.exitTime.toNat ++ natBytes 3 d.entryPace ++
    natBytes 3 d.exitPace ++ natBytes 1 d.paceSource.code ++
    [bitsByte [d.spacing.isSome, d.axleLoad.isSome, d.north.isSome, d.south.isSome]] ++ optBytes 2 d.spacing ++
    natBytes 1 (d.estimates.length / 2) ++
    (d.estimates.flatMap fun x => natBytes 1 x.condition.code ++ optBytes 2 x.mass) ++ optBytes 2 d.north ++
    optBytes 2 d.south ++ optBytes 4 d.axleLoad ++ natBytes 2 d.flags.toNat

/-- SUMMARY (R183); the value of the CAL_PENDING byte is notes/assumptions/26.md. -/
def summaryPayload (m : Summary) : List Byte :=
  let c := m.ctx
  natBytes 2 c.number.toNat ++ natBytes 1 c.direction.code ++ natBytes 4 c.startScan.toNat ++
    optBytes 4 (c.endScan.map BitVec.toNat) ++ natBytes 4 c.epoch.toNat ++
    [bitsByte [c.stood, c.disturbed, c.passagesDuringEnding]] ++ optBytes 1 (c.endReason.map EndReason.code) ++
    ([c.ignoredBefore, c.entries, c.backouts, c.exits, c.returns, c.returnedAfterRelease, c.unexpected, c.ignored,
        c.axlesDiscarded, c.vehiclesDiscarded, c.detailsDropped, c.consistUsed, c.consistLate, c.consistUnused,
        c.vehiclesReleased, c.vehiclesWithGross, c.grossTotal, c.payloadTotal].flatMap
      fun n => natBytes 4 n.toNat) ++
    natBytes 2 m.counter ++ [boolByte m.calPending]

/-- A frame with its check, computed as the frame starts (R179). -/
def outFrame (kind : Byte) (payload : List Byte) : OutFrame :=
  { kind, payload, check := frameCheck (checkedBytes kind payload) }

/-- The frame of a response. -/
def responseFrame (r : Response) : OutFrame := outFrame kindResponse (responsePayload r)

/-- The frame of a notice. -/
def noticeFrame (k : NoticeKind) (e : NoticeEntry) : OutFrame := outFrame kindNotice (noticePayload k e)

/-- The frame of an entry of the Record Queue. -/
def recordFrame : QueueRecord → OutFrame
  | .vehicle v => outFrame kindVehicle (vehiclePayload v)
  | .summary m => outFrame kindSummary (summaryPayload m)

/-- The frame of an axle detail. -/
def detailFrame (d : AxleDetail) : OutFrame := outFrame kindAxleDetail (detailPayload d)

end Sys2Proof.Machine
end

