-- ==== Sys2Proof/Machine/Operands.lean ====
section
/-! DEFINITION. Every operand form: what the payloads of inbound frames and requests carry (R180, R181), and the checks on
each field in the order the rules give (R8, R115, R116, R117, R128, R146, R170, R174, R185). A check answers the number
of the first failing field. -/

namespace Sys2Proof.Machine

/-- The field number listed against the first check that fails; none when every check passes. -/
def firstFailing : List (Bool × Nat) → Option Nat
  | [] => none
  | (ok, n) :: rest => if ok then firstFailing rest else some n

/-- The value lies in lo..hi. -/
def inRange (lo hi x : Nat) : Bool := decide (lo ≤ x) && decide (x ≤ hi)

/-! ## Frames of the Track Link (R180) -/

/-- A channel entry of a scan: signed value and status code. -/
structure Sample where
  value : Int
  status : SampleStatus
  deriving DecidableEq, Repr

/-- The channel entries of a SCAN payload after the scan number, with their status bytes unread. -/
def rawSamples : List Byte → List (Int × Byte)
  | a :: b :: c :: st :: rest => (intAt [a, b, c] 0 3, st) :: rawSamples rest
  | _ => []

/-- The samples, when every status is defined. -/
def samplesOf : List (Int × Byte) → Option (List Sample)
  | [] => some []
  | (v, st) :: rest =>
    match SampleStatus.ofCode st.toNat, samplesOf rest with
    | some x, some xs => some ({ value := v, status := x } :: xs)
    | _, _ => none

/-- The number k of channel entries of a SCAN payload, when its length is 2 + 4k with k in 1..8 (R15, R180). -/
def scanEntries (p : List Byte) : Option Nat :=
  let k := (p.length - 2) / 4
  if p.length = 2 + 4 * k ∧ 1 ≤ k ∧ k ≤ 8 then some k else none

/-! ## Geometry (R7, R8) -/

/-- The zone entries of a WRITE GEOMETRY payload after its first 11 bytes. -/
def zoneSpans : List Byte → List ZoneSpan
  | a :: b :: c :: d :: rest => { a := be [a, b], b := be [c, d] } :: zoneSpans rest
  | _ => []

/-- A candidate whose payload has the length for the number of zone entries it carries, that number being the Z it
carries (R7, R181). None is MALFORMED. -/
def parseGeometry (p : List Byte) : Option GeometryRecord :=
  let m := (p.length - 11) / 4
  if p.length = 11 + 4 * m ∧ natAt p 0 1 = m then
    some { fScan := natAt p 1 2, dW := natAt p 3 2, dE := natAt p 5 2, cE := natAt p 7 2
           minAxleSpacing := natAt p 9 2, zones := zoneSpans (p.drop 11) }
  else none

/-- Steps 10, 11 and 12 of R8 for the zones from zone z upward, `prev` being b of the zone before, or none for zone 1. -/
def zoneChecks (mas : Nat) : Nat → Option Nat → List ZoneSpan → List (Bool × Nat)
  | _, _, [] => []
  | z, prev, s :: rest =>
    (decide (prev.getD 500 ≤ s.a), 5 + 2 * z) ::
    (decide (s.a + 300 ≤ s.b) && decide (s.b ≤ s.a + 1500), 6 + 2 * z) ::
    (decide (s.b < s.a + mas), 6 + 2 * z) :: zoneChecks mas (z + 1) (some s.b) rest

/-- b of the last zone (R8, step 13). -/
def lastZoneEnd (zones : List ZoneSpan) : Nat := (zones.getLast?.map ZoneSpan.b).getD 0

/-- R8, in the order of its table. -/
def geometryChecks (minZones : Nat) (g : GeometryRecord) : List (Bool × Nat) :=
  [(inRange 1 4 g.zones.length, 1),
   (decide (minZones ≤ g.zones.length), 1),
   (inRange 1000 8000 g.fScan, 2),
   (inRange 300 2000 g.dW, 3),
   (inRange 300 2000 g.dE, 4),
   (inRange 2000 30000 g.cE, 5),
   (inRange 800 3000 g.minAxleSpacing, 6),
   (decide (g.dW < g.minAxleSpacing), 3),
   (decide (g.dE < g.minAxleSpacing), 4)] ++
  zoneChecks g.minAxleSpacing 1 none g.zones ++
  [(decide (lastZoneEnd g.zones + 500 ≤ g.cE), 5)]

/-- The first failing field of a candidate Geometry Record (R8). -/
def geometryFault (minZones : Nat) (g : GeometryRecord) : Option Nat := firstFailing (geometryChecks minZones g)

/-! ## Channel Record (R115) -/

/-- The four fields in the WRITE CHANNEL layout without the channel byte (13 bytes). -/
def parseChannel (p : List Byte) : ChannelRecord :=
  { zeroCal := intAt p 0 3, gain := natAt p 3 4, zeroRange := natAt p 7 3, threshold := natAt p 10 3 }

/-- The first failing field of a Channel Record (R115). -/
def channelFault (c : ChannelRecord) : Option Nat :=
  firstFailing
    [(decide (-8388608 ≤ c.zeroCal) && decide (c.zeroCal ≤ 8388607), 1),
     (inRange 1 4294967295 c.gain, 2),
     (inRange 0 1048575 c.zeroRange, 3),
     (inRange 1 8388607 c.threshold, 4)]

/-! ## Speed Curve (R116) -/

/-- Point i of the curve, i from 0. -/
def curvePointAt (p : List Byte) (i : Nat) : CurvePoint := { v := natAt p (4 * i) 2, k := natAt p (4 * i + 2) 2 }

/-- Eight points (32 bytes). -/
def parseCurve (p : List Byte) : Vector CurvePoint 8 :=
  #v[curvePointAt p 0, curvePointAt p 1, curvePointAt p 2, curvePointAt p 3, curvePointAt p 4, curvePointAt p 5,
    curvePointAt p 6, curvePointAt p 7]

/-- The three checks of R116 for the points from point i upward, `prev` being v of the point before. -/
def curveChecks : Nat → Option Nat → List CurvePoint → List (Bool × Nat)
  | _, _, [] => []
  | i, prev, p :: rest =>
    (inRange 0 2000 p.v, 2 * i - 1) ::
    ((prev.map fun q => decide (q < p.v)).getD true, 2 * i - 1) ::
    (inRange 16384 65535 p.k, 2 * i) :: curveChecks (i + 1) (some p.v) rest

/-- The first failing field of a Speed Curve (R116). -/
def curveFault (c : Vector CurvePoint 8) : Option Nat := firstFailing (curveChecks 1 none c.toList)

/-! ## Limits (R117) -/

/-- The twelve fields (14 bytes). -/
def parseLimits (p : List Byte) : Limits :=
  { trimEighths := natAt p 0 1, nMin := natAt p 1 1, minZones := natAt p 2 1, spreadLimit := natAt p 3 1
    tol := natAt p 4 1, nOn := natAt p 5 1, nOff := natAt p 6 1, vMin := natAt p 7 2, vMax := natAt p 9 2
    accelLimit := natAt p 11 1, lrLimit := natAt p 12 1, endLimit := natAt p 13 1 }

/-- The first failing field of the Limits, min_zones being judged against 1..z (R117). -/
def limitsFault (z : Nat) (l : Limits) : Option Nat :=
  firstFailing
    [(inRange 0 3 l.trimEighths, 1),
     (inRange 4 64 l.nMin, 2),
     (inRange 1 z l.minZones, 3),
     (inRange 1 255 l.spreadLimit, 4),
     (inRange 1 255 l.tol, 5),
     (inRange 2 15 l.nOn, 6),
     (inRange 2 15 l.nOff, 7),
     (inRange 10 300 l.vMin, 8),
     (inRange (l.vMin + 1) 1500 l.vMax, 9),
     (inRange 1 32 l.accelLimit, 10),
     (inRange 1 255 l.lrLimit, 11),
     (inRange 1 255 l.endLimit, 12)]

/-! ## Store image (R124, R185) -/

/-- The tables an image carries. -/
structure ImageTables where
  geometry : GeometryRecord
  channels : Vector (Option ChannelRecord) 8
  curve : Vector CurvePoint 8
  limits : Limits
  deriving DecidableEq, Repr

/-- One channel of the image: its marker (0 absent, 1 valid) and, when valid, a record in range. None: judged failed. -/
def imageChannel (p : List Byte) : Option (Option ChannelRecord) :=
  if natAt p 0 1 = 0 then some none
  else if natAt p 0 1 = 1 ∧ channelFault (parseChannel (p.drop 1)) = none then some (some (parseChannel (p.drop 1)))
  else none

/-- The eight channels of the image from its bytes after the Geometry Record. -/
def imageChannels (p : List Byte) : Option (Vector (Option ChannelRecord) 8) :=
  match imageChannel p, imageChannel (p.drop 14), imageChannel (p.drop 28), imageChannel (p.drop 42),
    imageChannel (p.drop 56), imageChannel (p.drop 70), imageChannel (p.drop 84), imageChannel (p.drop 98) with
  | some a, some b, some c, some d, some e, some f, some g, some h => some #v[a, b, c, d, e, f, g, h]
  | _, _, _, _, _, _, _, _ => none

/-- The tables of a good image: its length fits its Z, its check sums correctly, its markers are 0 or 1, and every field
passes the checks of R8, R115, R116 and R117, min_zones against the image's own Z and step 2 of R8 against the image's
min_zones (R124, R185). None: the image is failed. -/
def parseImage (bytes : List Byte) : Option ImageTables :=
  let z := natAt bytes 0 1
  let geo := 11 + 4 * z
  let body := bytes.dropLast.dropLast
  if bytes.length = geo + 160 ∧ checkPasses body (BitVec.ofNat 16 (natAt bytes (geo + 158) 2)) then
    match parseGeometry (bytes.take geo), imageChannels (bytes.drop geo) with
    | some g, some cs =>
      let c := parseCurve (bytes.drop (geo + 112))
      let l := parseLimits (bytes.drop (geo + 144))
      if geometryFault l.minZones g = none ∧ curveFault c = none ∧ limitsFault z l = none then
        some { geometry := g, channels := cs, curve := c, limits := l }
      else none
    | _, _ => none
  else none

/-! ## Operating Settings (R170) -/

/-- The four fields (7 bytes). -/
def parseSettings (p : List Byte) : Settings :=
  { quietTime := natAt p 0 2, idWait := natAt p 2 2, splitGap := natAt p 4 2, axleDetail := natAt p 6 1 != 0 }

/-- The first failing field of a WRITE SETTINGS payload (R170). -/
def settingsFault (p : List Byte) : Option Nat :=
  firstFailing
    [(inRange 100 65535 (natAt p 0 2), 1), (inRange 0 65535 (natAt p 2 2), 2),
     (inRange 1000 6000 (natAt p 4 2), 3), (inRange 0 1 (natAt p 6 1), 4)]

/-! ## Type Table entry (R127, R128) -/

/-- The spacings of a WRITE TYPE payload. -/
def spacingsOf : List Byte → List Nat
  | a :: b :: rest => be [a, b] :: spacingsOf rest
  | _ => []

/-- The length fits the axle count n carried: 17 + 2(n − 1) bytes, n at least 1 (R128, R181). -/
def typeShape (p : List Byte) : Bool :=
  decide (17 ≤ p.length) && decide (1 ≤ natAt p 3 1) && decide (p.length = 17 + 2 * (natAt p 3 1 - 1))

/-- Bit i of the presence byte. -/
def presentBit (p : List Byte) (off i : Nat) : Bool := (byteAt p off).getLsbD i

/-- The type a WRITE TYPE payload (with its index byte) carries. -/
def parseType (p : List Byte) : VehicleType :=
  { code := natAt p 1 1
    kind := (VehicleKind.ofCode (natAt p 2 1)).getD .other
    tolerance := natAt p 4 2
    gapMin := natAt p 6 2
    tare := if presentBit p 8 0 then some (natAt p 9 4) else none
    maxGross := if presentBit p 8 1 then some (natAt p 13 4) else none
    spacings := spacingsOf (p.drop 17) }

/-- Another non-empty entry, at a different index, holds the code (R128). -/
def codeTaken (types : List (Option VehicleType)) (index code : Nat) : Bool :=
  types.zipIdx.any fun e => e.2 != index && (e.1.map VehicleType.code) == some code

/-- The range check of each spacing, field numbers from `n` upward (R127). -/
def spacingChecks : Nat → List Nat → List (Bool × Nat)
  | _, [] => []
  | n, s :: rest => (inRange 500 20000 s, n) :: spacingChecks (n + 1) rest

/-- The first failing field of a WRITE TYPE payload (R127, R128). -/
def typeFault (types : List (Option VehicleType)) (p : List Byte) : Option Nat :=
  let t := parseType p
  firstFailing
    ([(inRange 1 255 t.code && !codeTaken types (natAt p 0 1) t.code, 1),
      ((VehicleKind.ofCode (natAt p 2 1)).isSome, 2),
      (inRange 2 8 (natAt p 3 1), 3),
      (inRange 0 500 t.tolerance, 4),
      (inRange 1000 10000 t.gapMin, 5),
      (inRange 0 200000 (t.tare.getD 0), 6),
      (inRange 1 1048560 (t.maxGross.getD 1), 7)] ++ spacingChecks 8 t.spacings)

/-! ## Consist entry (R145, R146) -/

/-- The entry an APPEND CONSIST payload carries. -/
def parseConsist (p : List Byte) : ConsistEntry :=
  { identity := p.drop 3
    typeCode := if presentBit p 0 0 then some (natAt p 1 1) else none
    kind := if presentBit p 0 1 then VehicleKind.ofCode (natAt p 2 1) else none }

/-- The first failing field of an APPEND CONSIST payload (R146). -/
def consistFault (p : List Byte) : Option Nat :=
  firstFailing
    [(!(p.drop 3).isEmpty && (p.drop 3).all fun c => inRange 32 126 c.toNat, 1),
     (!(presentBit p 0 0 && natAt p 1 1 == 0), 2),
     (!(presentBit p 0 1 && (VehicleKind.ofCode (natAt p 2 1)).isNone), 3)]

/-! ## Counter selection (R174) -/

/-- The selection a WRITE COUNTER payload (with its counter byte) carries. DESIGN CHOICE: invert and edge are off at 0 and on at
1 (notes/assumptions/9.md). -/
def parseSelection (p : List Byte) : Selection :=
  { event := (CounterEvent.ofCode (natAt p 1 1)).getD .none
    threshold := natAt p 2 1
    invert := natAt p 3 1 != 0
    edge := natAt p 4 1 != 0
    low := natAt p 5 2
    high := natAt p 7 2 }

/-- The first failing field of a WRITE COUNTER payload (R174). DESIGN CHOICE: the codes of invert and edge are 0 and 1, any other
is out of range (notes/assumptions/9.md). -/
def selectionFault (p : List Byte) : Option Nat :=
  firstFailing
    [((CounterEvent.ofCode (natAt p 1 1)).isSome, 1), (inRange 0 255 (natAt p 2 1), 2),
     (inRange 0 1 (natAt p 3 1), 3), (inRange 0 1 (natAt p 4 1), 4), (inRange 0 65535 (natAt p 5 2), 5),
     (inRange (natAt p 5 2) 65535 (natAt p 7 2), 6)]

end Sys2Proof.Machine
end

