-- ==== Sys2Proof/Config.lean ====
section
/-! DEFINITION. What the manual leaves open as a value: constants without a body, so that no proof can see them.

The manual says that none of the three is ever asked for (R12, R82, R105: a train runs only while the part is READY,
and what it needs is then valid). The meanings are total, so in a state that no run reaches the value is free.
See notes/assumptions/12.md. -/

namespace Sys2Proof

/-- The pace used for an entry or an exit whose passage carries none, as a function of its transit time (R36: with the
Geometry Record absent a passage carries no pace; no train runs then, R12). Free: safe. -/
opaque Config.unstatedPace : Nat → Nat

/-- The speed used for an entry whose passage carries none, as a function of its transit time (R37, R12). Free: safe. -/
opaque Config.unstatedSpeed : Nat → Nat

/-- The speed factor K at an entry speed while no Speed Curve is held (R105: it is valid at every finalization).
Free: safe. -/
opaque Config.unstatedFactor : Nat → Nat

/-- The gain of a channel whose Channel Record is absent (R82: no window is held then). Free: safe. -/
opaque Config.unstatedGain : Nat → Nat

end Sys2Proof
end

