-- ==== Sys2Proof/Machine/Arith.lean ====
section
/-! DEFINITION. The manual's arithmetic (00_scope, Numbers and arithmetic) and its comparisons of times modulo a power of
two (R29, R83). -/

namespace Sys2Proof.Machine

/-- a / b rounded half up: floor(a/b + 1/2). -/
def roundHalfUp (a b : Nat) : Nat := (2 * a + b) / (2 * b)

/-- a / b rounded half up for a signed a: floor(a/b + 1/2) (R108). -/
def roundHalfUpInt (a : Int) (b : Nat) : Int := (2 * a + b) / (2 * b)

/-- a / b rounded half away from zero: floor(|a|/b + 1/2) with the sign of a (R102, R103). -/
def roundHalfAway (a : Int) (b : Nat) : Int :=
  if a < 0 then -(roundHalfUp a.natAbs b : Int) else (roundHalfUp a.natAbs b : Int)

/-- The clamp of a result to lo..hi. -/
def clamp (lo hi x : Nat) : Nat := max lo (min hi x)

/-- |a − b|. -/
def absDiff (a b : Nat) : Nat := (a - b) + (b - a)

/-- Sum of a list of optional loads, present when every one is (R137). -/
def sumPresent : List (Option Nat) → Option Nat
  | [] => some 0
  | x :: xs => match x, sumPresent xs with
    | some a, some b => some (a + b)
    | _, _ => none

/-- b − a modulo 2^32 read as a signed quantity (R83). -/
def scanDiff (b a : Scan) : Int := (b - a).toInt

/-- "a is at or before b" (R83). -/
def atOrBefore (a b : Scan) : Bool := decide (0 ≤ scanDiff b a)

/-- "a is before b" (R83). -/
def before (a b : Scan) : Bool := decide (0 < scanDiff b a)

/-- The scan lies in the interval, both ends included. -/
def within (lo hi t : Scan) : Bool := atOrBefore lo t && atOrBefore t hi

/-- The difference of two t16 values, taken modulo 2^32 and read as a signed quantity (R29, R35, R69). -/
def t16Diff (b a : T16) : Int := ((b - a).setWidth 32).toInt

/-- floor(t16 / 16), a scan time (R29). -/
def t16Floor (t : T16) : Scan := (t >>> 4).setWidth 32

/-- ceil(t16 / 16), a scan time (R90). -/
def t16Ceil (t : T16) : Scan := t16Floor (t + 15#36)

/-- 16 × scan + fraction, modulo 2^36 (R29). -/
def t16OfScan (s : Scan) (fraction : Nat) : T16 := (s.setWidth 36 <<< 4) + BitVec.ofNat 36 fraction

/-- The successor of a train number: from 65,535 back to 1 (R49). -/
def nextTrainNumber (n : Word16) : Word16 := if n = 65535#16 then 1 else n + 1

/-- The successor of an entry generation: from 65,535 back to 1 (R66). -/
def nextGeneration (n : Nat) : Nat := if n = 65535 then 1 else n + 1

end Sys2Proof.Machine
end

