-- ==== Sys2Proof/Machine/Ops.lean ====
section
/-! DEFINITION. The shared operations over the state: notice causes (R161), statistics (R175 to R177), the queues
(R155 to R157), the output arbiter (R158 to R160, R162), the axle records (R65), and the answers of the Management Unit
(R167). -/

namespace Sys2Proof.Machine

/-! ## Capacities -/

/-- R155. -/
def recordCapacity : Nat := 64
/-- R156. -/
def detailCapacity : Nat := 32
/-- R157. -/
def responseCapacity : Nat := 4
/-- R166. -/
def requestCapacity : Nat := 4
/-- R65. -/
def axleCapacity : Nat := 128
/-- R89. -/
def windowCapacity : Nat := 48
/-- R129. -/
def vehicleCapacity : Nat := 16
/-- R145. -/
def consistCapacity : Nat := 512
/-- R150. -/
def waitingCapacity : Nat := 4
/-- R64, R58. -/
def maxOrdinal : Nat := 4095
/-- R177. -/
def counterMax : Nat := 4294967295

/-! ## Notices -/

/-- The level of a kind (R163). -/
def NoticeUnit.level (u : NoticeUnit) (k : NoticeKind) : Nat := u.levels[k.index]

/-- The register entry of a kind (R161). -/
def NoticeUnit.entry (u : NoticeUnit) (k : NoticeKind) : NoticeEntry := u.register[k.index]

/-- The register with the entry of a kind replaced. -/
def NoticeUnit.setEntry (u : NoticeUnit) (k : NoticeKind) (e : NoticeEntry) : NoticeUnit :=
  { u with register := u.register.set k.index e }

/-- A cause of a kind: the count increments and holds at 255, the argument is overwritten, the mark is set at a level of
1 to 7 (R161). -/
def NoticeUnit.raise (u : NoticeUnit) (k : NoticeKind) (arg : Nat) : NoticeUnit :=
  let e := u.entry k
  u.setEntry k
    { pending := e.pending || u.level k != 0, count := min 255 (e.count + 1), lastArg := BitVec.ofNat 16 arg }

/-- A notice cause handed to the Notice Unit (R161). -/
def raiseCause (k : NoticeKind) (arg : Nat) (s : State) : State := { s with notices := s.notices.raise k arg }

/-- The kinds in the order of their numbers. -/
def allKinds : List NoticeKind :=
  [.trainStarted, .calEnChanged, .frameRejected, .scanGap, .trackSyncLost, .eventDiscarded, .detectorSuspect,
    .countMismatch, .phantomWheel, .channelFault, .trainNotWeighed, .trainAborted, .mgmtOverrun, .storeFault,
    .statsFull, .recordBacklog]

/-- Among the pending notices whose level lies in lo..hi, the one of the highest level, and among equal levels the one of
the highest kind number (R159). -/
def NoticeUnit.choose (u : NoticeUnit) (lo hi : Nat) : Option NoticeKind :=
  allKinds.foldl
    (fun best k =>
      if (u.entry k).pending && decide (lo ≤ u.level k) && decide (u.level k ≤ hi) then
        match best with
        | some b => if u.level b ≤ u.level k then some k else some b
        | none => some k
      else best)
    none

/-! ## Statistics -/

/-- An addition to a counter; the second part says that it reached its maximum by it (R177). -/
def Counter.add (q : Nat) (c : Counter) : Counter × Bool :=
  if c.value < counterMax ∧ counterMax ≤ c.value + q then ({ c with value := counterMax, overflow := true }, true)
  else ({ c with value := min counterMax (c.value + q) }, false)

/-- `n` occurrences of a count event at a counter (R175). -/
def Counter.occur (e : CounterEvent) (n : Nat) (c : Counter) : Counter × Bool :=
  if c.selection.event = e then c.add n else (c, false)

/-- A finalization of an axle at speed `v` at a counter of AXLES_IN_BAND (R175). -/
def Counter.inBand (v : Nat) (c : Counter) : Counter × Bool :=
  if c.selection.event = .axlesInBand ∧ c.selection.low ≤ v ∧ v ≤ c.selection.high then c.add 1 else (c, false)

/-- The condition of a sample: q at least the threshold, or with invert on below it (R176). -/
def Selection.holds (x : Selection) (q : Nat) : Bool :=
  if x.invert then decide (q < x.threshold) else decide (x.threshold ≤ q)

/-- One sample of a quantity at a counter (R176). -/
def Counter.sample (q : Nat) (c : Counter) : Counter × Bool :=
  if c.selection.threshold = 0 then c.add q
  else
    let h := c.selection.holds q
    let r := if h && !(c.selection.edge && c.previous) then c.add 1 else (c, false)
    ({ r.1 with previous := h }, r.2)

/-- An update of each counter on its own; a counter that reaches its maximum raises STATS_FULL with its index (R177). -/
def updateCounters (f : Counter → Counter × Bool) (s : State) : State :=
  let r0 := f s.counters[0]
  let r1 := f s.counters[1]
  let r2 := f s.counters[2]
  let r3 := f s.counters[3]
  let raiseIf (full : Bool) (i : Nat) (u : NoticeUnit) : NoticeUnit := if full then u.raise .statsFull i else u
  { s with
    counters := #v[r0.1, r1.1, r2.1, r3.1]
    notices := raiseIf r3.2 3 (raiseIf r2.2 2 (raiseIf r1.2 1 (raiseIf r0.2 0 s.notices))) }

/-- `n` occurrences of a count event (R175). -/
def countEvent (e : CounterEvent) (n : Nat) (s : State) : State := updateCounters (Counter.occur e n) s

/-- A finalized axle offered to every counter selecting AXLES_IN_BAND (R74, R175). -/
def countInBand (v : Nat) (s : State) : State := updateCounters (Counter.inBand v) s

/-- The samples of the occupancy and HOLD_SCANS counters at an accepted scan (R176). -/
def sampleOccupancy (s : State) : State :=
  updateCounters
    (fun c =>
      match c.selection.event with
      | .axleQueueOccupancy => c.sample s.axles.queue.length
      | .recordQueueOccupancy => c.sample s.link.records.length
      | .holdScans => c.sample s.hold.toNat
      | _ => (c, false))
    s

/-! ## The train context -/

/-- An update of the train context, where there is one (R47). -/
def modifyCtx (f : TrainContext → TrainContext) (s : State) : State :=
  { s with train := { s.train with ctx := s.train.ctx.map f } }

/-- A train is RUNNING, STANDING or ENDING (R118, R128, R148). -/
def State.busyTrain (s : State) : Bool :=
  s.train.state == .running || s.train.state == .standing || s.train.state == .ending

/-- The train's direction; while there is no context no distance is asked for. -/
def State.direction (s : State) : Direction := (s.train.ctx.map TrainContext.direction).getD .eastbound

/-- The quiet timer started or restarted: it expires quiet_time scans after the current T (R55). -/
def startQuiet (s : State) : State :=
  { s with train := { s.train with quiet := some (s.rx.time + BitVec.ofNat 32 s.settings.quietTime) } }

/-! ## The pair units -/

/-- The pending events of both pair units cleared, the rock counts kept (R38). -/
def clearPairs (s : State) : State :=
  { s with west := { s.west with pending := none }, east := { s.east with pending := none } }

/-! ## Axle records -/

/-- The record of an ordinal, if the Axle Queue holds one (R65). -/
def AxleTracker.find (x : AxleTracker) (ordinal : Nat) : Option AxleRecord :=
  x.queue.find? fun a => a.ordinal == ordinal

/-- An update of the record of an ordinal in place. -/
def AxleTracker.modify (x : AxleTracker) (ordinal : Nat) (f : AxleRecord → AxleRecord) : AxleTracker :=
  { x with queue := x.queue.map fun a => if a.ordinal = ordinal then f a else a }

/-- The state with the record of an ordinal updated in place. -/
def modifyAxle (ordinal : Nat) (f : AxleRecord → AxleRecord) (s : State) : State :=
  { s with axles := s.axles.modify ordinal f }

/-- The axles on the section, first_on to last_on, exist (R64). -/
def AxleTracker.onSection (x : AxleTracker) : Bool := decide (x.firstOn ≤ x.lastOn)

/-- DISTURBED on every axle on the section (R54, R56). -/
def disturbSection (s : State) : State :=
  { s with
    axles :=
      { s.axles with
        queue := s.axles.queue.map fun a =>
          if s.axles.firstOn ≤ a.ordinal ∧ a.ordinal ≤ s.axles.lastOn then
            { a with flags := a.flags ||| AxleFlag.disturbed.mask }
          else a } }

/-- Every zone estimate undecided. -/
def noEstimates : Vector (Option Estimate) 8 := #v[none, none, none, none, none, none, none, none]

/-! ## Geometry -/

/-- Z of the working Geometry Record, 0 while it is absent (R12). -/
def Calibration.zoneCount (c : Calibration) : Nat := (c.geometry.map fun g => g.zones.length).getD 0

/-- The channel of a zone and rail (R2); zone z of the manual is index z − 1. -/
def channelOf (z : Fin 4) (r : Rail) : Fin 8 :=
  match r with
  | .north => ⟨2 * z.val, by omega⟩
  | .south => ⟨2 * z.val + 1, by omega⟩

/-- The zones in use, in the order of their numbers (R1). -/
def Calibration.zonesInUse (c : Calibration) : List (Fin 4) :=
  ([0, 1, 2, 3] : List (Fin 4)).filter fun z => decide (z.val < c.zoneCount)

/-! ## Readiness -/

/-- The Channel Records of channels 0 to 2Z − 1 are valid (R11). -/
def Calibration.channelsValid (c : Calibration) : Bool :=
  c.zonesInUse.all fun z => c.channels[channelOf z .north].isSome && c.channels[channelOf z .south].isSome

/-- R11. -/
def Calibration.ready (c : Calibration) : Bool :=
  c.geometry.isSome && c.channelsValid && c.curve.isSome && c.origin != .default

/-- Readiness evaluated (R11). -/
def evaluateReadiness (s : State) : State := { s with part := if s.cal.ready then .ready else .notReady }

/-! ## The queues of the Record Link -/

/-- A place of the Response Queue is free, the reservation counting as taken (R157). -/
def State.responsePlace (s : State) : Bool :=
  decide (s.link.responses.length + s.cal.committing.isSome.toNat < responseCapacity)

/-- A response placed at the tail of the Response Queue (R157, R167). -/
def placeResponse (r : Response) (s : State) : State :=
  { s with link := { s.link with responses := s.link.responses ++ [r] } }

/-- The answer to a request: its tag, its code, a status and a payload (R167). -/
def answer (r : Request) (st : Status) (payload : List Byte) (s : State) : State :=
  placeResponse { tag := r.tag, code := r.code, status := st, payload } s

/-- BAD_VALUE with the number of the first failing field (R167, R182). -/
def answerBadValue (r : Request) (field : Nat) (s : State) : State := answer r .badValue (natBytes 1 field) s

/-- The train number an entry of the Record Queue carries (R155). -/
def QueueRecord.train : QueueRecord → Word16
  | .vehicle v => v.train
  | .summary m => m.ctx.number

/-- An entry placed in the Record Queue; the step from 47 to 48 entries raises RECORD_BACKLOG (R155). -/
def placeRecord (q : QueueRecord) (s : State) : State :=
  { s with
    link := { s.link with records := s.link.records ++ [q] }
    notices := if s.link.records.length = 47 then s.notices.raise .recordBacklog q.train.toNat else s.notices }

/-- An axle detail offered to its queue: dropped and counted when the queue holds 32 (R80, R156). -/
def offerDetail (d : AxleDetail) (s : State) : State :=
  if s.link.details.length < detailCapacity then { s with link := { s.link with details := s.link.details ++ [d] } }
  else modifyCtx (fun c => { c with detailsDropped := c.detailsDropped + 1 }) s

/-! ## The output arbiter -/

/-- What the arbiter takes at a boundary (R159). -/
inductive Choice where
  | response (r : Response)
  | notice (k : NoticeKind)
  | record (q : QueueRecord)
  | detail (d : AxleDetail)
  deriving DecidableEq, Repr

/-- The first candidate that exists, in the order of R159. -/
def State.arbiter (s : State) : Option Choice :=
  match s.link.responses with
  | r :: _ => some (.response r)
  | [] =>
    match s.notices.choose 5 7 with
    | some k => some (.notice k)
    | none =>
      match s.link.records with
      | q :: _ => some (.record q)
      | [] =>
        match s.notices.choose 1 4 with
        | some k => some (.notice k)
        | none =>
          match s.link.details with
          | d :: _ => some (.detail d)
          | [] => none

/-- The chosen item leaves its queue, or is read out of the register with its mark and count cleared, and its frame is
SENDING (R160, R162). -/
def startChosen (c : Choice) (s : State) : State :=
  match c with
  | .response r =>
    { s with link := { s.link with responses := s.link.responses.tail, sending := some (responseFrame r) } }
  | .notice k =>
    { s with
      link := { s.link with sending := some (noticeFrame k (s.notices.entry k)) }
      notices := s.notices.setEntry k { s.notices.entry k with pending := false, count := 0 } }
  | .record q => { s with link := { s.link with records := s.link.records.tail, sending := some (recordFrame q) } }
  | .detail d => { s with link := { s.link with details := s.link.details.tail, sending := some (detailFrame d) } }

/-- A frame can start: RL_HOLD is not asserted and the transmitter is IDLE (R158, R159). -/
def State.canStart (s : State) : Bool := !s.hold && s.link.sending.isNone

/-- The choice the arbiter makes if there is a boundary now (R159). -/
def State.chosen (s : State) : Option Choice := if s.canStart then s.arbiter else none

/-- A frame boundary: the arbiter starts the chosen frame, or the transmitter stays as it is (R159). Taken once at the
end of a step: what arrives in one step arrives together and makes one choice (notes/assumptions/10.md). -/
def boundary (s : State) : State :=
  match s.chosen with
  | some c => startChosen c s
  | none => s

/-! ## Management requests -/

/-- The head request, with the buffer's rest, when it can be executed: the part is not STARTING, and a place of the
Response Queue is free (R16, R167). -/
def State.headRequest (s : State) : Option (Request × State) :=
  match s.requests with
  | [] => none
  | r :: rest => if s.part != .starting && s.responsePlace then some (r, { s with requests := rest }) else none

/-- The step of a row that names a request: the head request is executed if its code is the row's; another head, or none
that can be executed, leaves the part as it is (notes/assumptions/1.md). -/
def onHead (mine : Byte → Bool) (f : Request → State → State) (s : State) : State :=
  match s.headRequest with
  | some (r, s') => if mine r.code then boundary (f r s') else s
  | none => s

end Sys2Proof.Machine
end

