-- ==== Sys2Proof/Machine/Zone.lean ====
section
/-! DEFINITION. Zone Measurement (chapter 6) and the wheel mass of a window (R102 to R104). One Zone Unit is a function of its
own state: a scan gives the unit after it, the estimates it hands to the Axle Tracker, its phantoms and its failing
blocks. -/

namespace Sys2Proof.Machine

/-! ## Rails, channels, windows -/

/-- The channel of a rail. -/
def ZoneUnit.channel (u : ZoneUnit) : Rail → Channel
  | .north => u.north
  | .south => u.south

/-- The unit with the channel of a rail replaced. -/
def ZoneUnit.setChannel (u : ZoneUnit) (r : Rail) (c : Channel) : ZoneUnit :=
  match r with
  | .north => { u with north := c }
  | .south => { u with south := c }

/-- What a window holds for a rail. -/
def Window.rail (w : Window) : Rail → RailWindow
  | .north => w.north
  | .south => w.south

/-- The window with the part of a rail replaced. -/
def Window.setRail (w : Window) (r : Rail) (x : RailWindow) : Window :=
  match r with
  | .north => { w with north := x }
  | .south => { w with south := x }

/-- Both rails are decided. -/
def Window.bothDecided (w : Window) : Bool := w.north.decided.isSome && w.south.decided.isSome

/-- The partial block and the presence run emptied (R24, R93). -/
def Channel.dropPartial (c : Channel) : Channel := { c with blockCount := 0, blockSum := 0, run := none }

/-- The partial block emptied (R84). -/
def Channel.dropBlock (c : Channel) : Channel := { c with blockCount := 0, blockSum := 0 }

/-- The ON band of a window: in_scan − tol to in_scan + tol (R89). -/
def Window.inOnBand (tol : Nat) (w : Window) (t : Scan) : Bool :=
  within (w.inScan - BitVec.ofNat 32 tol) (w.inScan + BitVec.ofNat 32 tol) t

/-- The OFF band of a window: out_scan − tol to out_scan + tol (R89). -/
def Window.inOffBand (tol : Nat) (w : Window) (t : Scan) : Bool :=
  within (w.outScan - BitVec.ofNat 32 tol) (w.outScan + BitVec.ofNat 32 tol) t

/-- A window covers the scans from the start of its ON band to the end of its OFF band (R84). -/
def Window.covers (tol : Nat) (w : Window) (t : Scan) : Bool :=
  within (w.inScan - BitVec.ofNat 32 tol) (w.outScan + BitVec.ofNat 32 tol) t

/-- The deadline has passed: t is after out_scan + tol (R98). -/
def Window.deadlinePassed (tol : Nat) (w : Window) (t : Scan) : Bool :=
  before (w.outScan + BitVec.ofNat 32 tol) t

/-! ## Wheel mass (R102, R103) -/

/-- m8, the rail's mean in eighths of a count (R102). -/
def railMean (sum : Int) (n : Nat) (base : Int) : Int := roundHalfAway (8 * sum - n * base) n

/-- w, the wheel mass in kilograms (R103). -/
def wheelMass (sum : Int) (n : Nat) (base : Int) (gain : Nat) : Int := roundHalfAway (railMean sum n base * gain) 524288

/-! ## Estimates -/

/-- A zone estimate on its way to the Axle Tracker (R76, R97, R103, R104). -/
structure Handed where
  ordinal : Nat
  generation : Nat
  channel : Fin 8
  condition : Condition
  mass : Option Nat
  belowZero : Bool
  aboveRange : Bool
  zeroSuspect : Bool
  deriving DecidableEq, Repr

/-- The first condition of R97 that applies to a rail whose window gives the mass `w`. -/
def railCondition (gap : Bool) (x : RailWindow) (w : Int) : Condition :=
  if gap then .gap
  else if x.fault then .fault
  else if !x.onSeen then .noWheel
  else if !x.offSeen then .timing
  else if w < 0 ∨ 65535 < w then .saturated
  else .valid

/-- The estimate with a condition and no wheel mass, as a window decided at prediction (R91) or cancelled (R99) gives. -/
def bareEstimate (w : Window) (ch : Fin 8) (c : Condition) : Handed :=
  { ordinal := w.ordinal, generation := w.generation, channel := ch, condition := c, mass := none, belowZero := false
    aboveRange := false, zeroSuspect := false }

/-- The estimate a rail is decided with (R97, R102 to R104). -/
def decideEstimate (w : Window) (ch : Fin 8) (c : Channel) (rec : Option ChannelRecord) (x : RailWindow) : Handed :=
  let gain := (rec.map ChannelRecord.gain).getD (Config.unstatedGain ch.val)
  let m := wheelMass x.sum x.count (x.closeBase.getD c.baseline) gain
  let cond := railCondition w.gap x m
  { ordinal := w.ordinal
    generation := w.generation
    channel := ch
    condition := cond
    mass := if cond = .valid then some m.toNat else none
    belowZero := cond == .saturated && decide (m < 0)
    aboveRange := cond == .saturated && decide (65535 < m)
    zeroSuspect := (cond == .saturated || cond == .valid) && c.zeroFault }

/-! ## What a Zone Unit reads besides its own state -/

/-- The Channel Records of its two channels and the Limits it uses. -/
structure ZoneTables where
  index : Fin 4
  north : Option ChannelRecord
  south : Option ChannelRecord
  tol : Nat
  nOn : Nat
  nOff : Nat
  deriving DecidableEq, Repr

/-- The tables of zone z as the working copies stand. -/
def Calibration.zoneTables (c : Calibration) (z : Fin 4) : ZoneTables :=
  { index := z, north := c.channels[channelOf z .north], south := c.channels[channelOf z .south]
    tol := c.limits.tol, nOn := c.limits.nOn, nOff := c.limits.nOff }

/-- The Channel Record of a rail; the channel of a zone in use is active while it is valid (R82). -/
def ZoneTables.record (k : ZoneTables) : Rail → Option ChannelRecord
  | .north => k.north
  | .south => k.south

/-- An update of the channel of a rail if it is active (R82). -/
def ZoneUnit.ifActive (k : ZoneTables) (r : Rail) (f : ChannelRecord → Channel → Channel) (u : ZoneUnit) : ZoneUnit :=
  match k.record r with
  | some rec => u.setChannel r (f rec (u.channel r))
  | none => u

/-- An update of each active channel. -/
def ZoneUnit.forActive (k : ZoneTables) (f : ChannelRecord → Channel → Channel) (u : ZoneUnit) : ZoneUnit :=
  (u.ifActive k .north f).ifActive k .south f

/-! ## The stages of R83 -/

/-- [s, e] contains at least one scan of m0..m1 (R93). -/
def Window.touches (m0 m1 : Scan) (w : Window) : Bool :=
  atOrBefore w.start w.stop && atOrBefore w.start m1 && atOrBefore m0 w.stop

/-- Stage 1 (R93): gap marks, and the partial block and presence run of each active channel emptied. -/
def ZoneUnit.applyGap (k : ZoneTables) (m0 m1 : Scan) (u : ZoneUnit) : ZoneUnit :=
  let u : ZoneUnit :=
    { u with windows := u.windows.map fun w : Window => if w.touches m0 m1 then { w with gap := true } else w }
  u.forActive k fun _ c => c.dropPartial

/-- A PENDING window whose s is at or before t opens (R92). -/
def Window.openAt (t : Scan) (w : Window) : Window :=
  if w.state = .pending ∧ atOrBefore w.start t then { w with state := .opened } else w

/-- An OPEN window whose e is before t closes, recording each rail's B8 (R92). -/
def Window.closeAt (t : Scan) (north south : Int) (w : Window) : Window :=
  if w.state = .opened ∧ before w.stop t then
    { w with
      state := .awaitingOff
      north := { w.north with closeBase := some north }
      south := { w.south with closeBase := some south } }
  else w

/-- Stage 2 (R92). -/
def ZoneUnit.progress (t : Scan) (u : ZoneUnit) : ZoneUnit :=
  { u with windows := u.windows.map fun w => (w.openAt t).closeAt t u.north.baseline u.south.baseline }

/-- One sample taken by a rail of an OPEN window (R92). -/
def RailWindow.take (x : RailWindow) (a : Sample) : RailWindow :=
  match a.status with
  | .ok => { x with sum := x.sum + a.value, count := x.count + 1 }
  | _ => { x with fault := true }

/-- Stage 3 (R92). -/
def ZoneUnit.accumulate (t : Scan) (n s : Sample) (u : ZoneUnit) : ZoneUnit :=
  { u with
    windows := u.windows.map fun w =>
      if w.state = .opened ∧ within w.start w.stop t then { w with north := w.north.take n, south := w.south.take s }
      else w }

/-- A presence event with the time of its run's first scan (R87, R88). -/
inductive PresenceEvent where
  | on (t : Scan)
  | off (t : Scan)
  deriving DecidableEq, Repr

/-- The presence run extended, or started at t: its count and first scan. -/
def Channel.extendRun (t : Scan) (c : Channel) : Nat × Scan :=
  match c.run with
  | some (n, first) => (n + 1, first)
  | none => (1, t)

/-- Stage 4 for one active channel (R86 to R88). -/
def Channel.detect (nOn nOff : Nat) (rec : ChannelRecord) (t : Scan) (a : Sample) (c : Channel) :
    Channel × Option PresenceEvent :=
  let excess := 8 * a.value - c.baseline
  match a.status, c.presence with
  | .ok, .empty =>
    if excess > 8 * (rec.threshold : Int) then
      let r := c.extendRun t
      if nOn ≤ r.1 then ({ c with presence := .occupied, run := none }, some (.on r.2))
      else ({ c with run := some r }, none)
    else ({ c with run := none }, none)
  | .ok, .occupied =>
    if excess < 8 * ((rec.threshold / 2 : Nat) : Int) then
      let r := c.extendRun t
      if nOff ≤ r.1 then ({ c with presence := .empty, run := none }, some (.off r.2))
      else ({ c with run := some r }, none)
    else ({ c with run := none }, none)
  | _, _ => ({ c with run := none }, none)

/-- Stage 4 for the channel of a rail; a channel that is not active reports nothing (R82). -/
def ZoneUnit.detect (k : ZoneTables) (t : Scan) (r : Rail) (a : Sample) (u : ZoneUnit) :
    ZoneUnit × Option PresenceEvent :=
  match k.record r with
  | some rec =>
    let d := (u.channel r).detect k.nOn k.nOff rec t a
    (u.setChannel r d.1, d.2)
  | none => (u, none)

/-- An event offered to a window (R94, R96): ON seen or OFF seen on its undecided rail, when its band contains t. -/
def Window.offer (tol : Nat) (r : Rail) (e : PresenceEvent) (w : Window) : Window :=
  if (w.rail r).decided.isSome then w
  else
    match e with
    | .on t => if w.inOnBand tol t then w.setRail r { w.rail r with onSeen := true } else w
    | .off t => if w.inOffBand tol t then w.setRail r { w.rail r with offSeen := true } else w

/-- An event offered to the Window List (R94, R96). -/
def ZoneUnit.offer (k : ZoneTables) (r : Rail) (e : Option PresenceEvent) (u : ZoneUnit) : ZoneUnit :=
  match e with
  | some e => { u with windows := u.windows.map fun w => w.offer k.tol r e }
  | none => u

/-- The event is an ON that no window of the list claims (R94, R95). -/
def ZoneUnit.isPhantom (k : ZoneTables) (e : Option PresenceEvent) (u : ZoneUnit) : Bool :=
  match e with
  | some (.on t) => !u.windows.any fun w => w.inOnBand k.tol t
  | _ => false

/-- A rail decided under R97, where it is undecided and `due` says so: the window after it and the estimate. -/
def Window.decideRail (k : ZoneTables) (u : ZoneUnit) (due : RailWindow → Bool) (r : Rail) (w : Window) :
    Window × List Handed :=
  let x := w.rail r
  if x.decided.isNone && due x then
    let h := decideEstimate w (channelOf k.index r) (u.channel r) (k.record r) x
    (w.setRail r { x with decided := some h.condition }, [h])
  else (w, [])

/-- Both rails of a window, North first; a window whose rails are then both decided is DONE (R97). -/
def Window.decide (k : ZoneTables) (u : ZoneUnit) (due : RailWindow → Bool) (w : Window) : Window × List Handed :=
  let a := w.decideRail k u due .north
  let b := a.1.decideRail k u due .south
  (if b.1.bothDecided then { b.1 with state := .done } else b.1, a.2 ++ b.2)

/-- Stage 5, decisions (R96, R97): in an AWAITING_OFF window every undecided rail whose OFF was seen is decided. -/
def Window.confirm (k : ZoneTables) (u : ZoneUnit) (w : Window) : Window × List Handed :=
  if w.state = .awaitingOff then w.decide k u fun x => x.offSeen else (w, [])

/-- Stage 5 over the list. -/
def ZoneUnit.confirm (k : ZoneTables) (u : ZoneUnit) : ZoneUnit × List Handed :=
  let ws := u.windows.map fun w => w.confirm k u
  ({ u with windows := ws.map Prod.fst }, ws.flatMap Prod.snd)

/-- Stage 6 (R98): each window whose deadline has passed decides its undecided rails and leaves the list. -/
def ZoneUnit.deadline (k : ZoneTables) (t : Scan) (u : ZoneUnit) : ZoneUnit × List Handed :=
  ({ u with windows := u.windows.filter fun w => !w.deadlinePassed k.tol t },
    (u.windows.filter fun w => w.deadlinePassed k.tol t).flatMap fun w => (w.decide k u fun _ => true).2)

/-- A full block judged (R85): the channel after it, and whether the block failed. -/
def Channel.judgeBlock (rec : ChannelRecord) (c : Channel) : Channel × Bool :=
  let d := (c.blockSum + 4) / 8
  if (d - 8 * rec.zeroCal).natAbs ≤ 8 * rec.zeroRange then
    ({ c with baseline := c.baseline + (d - c.baseline + 4) / 8, zeroFault := false, blockCount := 0, blockSum := 0 },
      false)
  else ({ c with zeroFault := true, blockCount := 0, blockSum := 0 }, true)

/-- Stage 7 for one active channel (R84, R85); `covered` says that a window of the list covers the scan. -/
def Channel.track (rec : ChannelRecord) (covered : Bool) (a : Sample) (c : Channel) : Channel × Bool :=
  if c.presence = .empty ∧ a.status = .ok ∧ covered = false then
    let c : Channel := { c with blockCount := c.blockCount + 1, blockSum := c.blockSum + a.value }
    if 64 ≤ c.blockCount then c.judgeBlock rec else (c, false)
  else (c.dropBlock, false)

/-- Stage 7 for the channel of a rail (R84). -/
def ZoneUnit.track (k : ZoneTables) (t : Scan) (r : Rail) (a : Sample) (u : ZoneUnit) : ZoneUnit × Bool :=
  match k.record r with
  | some rec =>
    let d := (u.channel r).track rec (u.windows.any fun w => w.covers k.tol t) a
    (u.setChannel r d.1, d.2)
  | none => (u, false)

/-- What one scan at a Zone Unit gives. -/
structure ZoneScan where
  unit : ZoneUnit
  handed : List Handed
  phantoms : List Rail
  failing : List Rail
  deriving DecidableEq, Repr

/-- One accepted scan at a Zone Unit, all stages of R83 in order. `missing` is the range of missing scans, `n` and `s` the
samples of the North and South channels. -/
def ZoneUnit.scan (k : ZoneTables) (t : Scan) (missing : Option (Scan × Scan)) (n s : Sample) (u : ZoneUnit) : ZoneScan :=
  let u := match missing with
    | some (m0, m1) => u.applyGap k m0 m1
    | none => u
  let u := (u.progress t).accumulate t n s
  let dn := u.detect k t .north n
  let ds := dn.1.detect k t .south s
  let phantoms :=
    (if ds.1.isPhantom k dn.2 then [Rail.north] else []) ++ (if ds.1.isPhantom k ds.2 then [Rail.south] else [])
  let offered := (ds.1.offer k .north dn.2).offer k .south ds.2
  let conf := offered.confirm k
  let dead := conf.1.deadline k t
  let tn := dead.1.track k t .north n
  let ts := tn.1.track k t .south s
  { unit := ts.1
    handed := conf.2 ++ dead.2
    phantoms := phantoms
    failing := (if tn.2 then [Rail.north] else []) ++ (if ts.2 then [Rail.south] else []) }

/-! ## Prediction (R90, R91) -/

/-- dist_in of a zone (R4). -/
def distIn (g : GeometryRecord) (d : Direction) (z : ZoneSpan) : Nat :=
  match d with
  | .eastbound => z.a
  | .westbound => g.cE - z.b

/-- dist_out of a zone (R4). -/
def distOut (g : GeometryRecord) (d : Direction) (z : ZoneSpan) : Nat :=
  match d with
  | .eastbound => z.b
  | .westbound => g.cE - z.a

/-- t_ref16 + round half up (dist × P_u / 2000), modulo 2^36 (R90). -/
def edgeTime (tRef : T16) (dist pace : Nat) : T16 := tRef + BitVec.ofNat 36 (roundHalfUp (dist * pace) 2000)

/-- An empty rail part of a new window. -/
def RailWindow.fresh : RailWindow :=
  { sum := 0, count := 0, fault := false, onSeen := false, offSeen := false, closeBase := none, decided := none }

/-- The window predicted for an entry, in state PENDING (R90). -/
def predictedWindow (ordinal generation : Nat) (tIn tOut : T16) (trimEighths : Nat) : Window :=
  let trim := BitVec.ofInt 36 (t16Diff tOut tIn * trimEighths / 8)
  { ordinal
    generation
    start := t16Ceil (tIn + trim)
    stop := t16Floor (tOut - trim)
    inScan := t16Floor (tIn + 8)
    outScan := t16Floor (tOut + 8)
    state := .pending
    gap := false
    north := RailWindow.fresh
    south := RailWindow.fresh }

/-- The condition a window is given at prediction, the first of R91 that holds. -/
def predictionCondition (time : Scan) (nMin tol : Nat) (list : List Window) (w : Window) : Option Condition :=
  if atOrBefore w.start time then some .missed
  else if scanDiff w.stop w.start + 1 < (nMin : Int) then some .short
  else if windowCapacity ≤ list.length then some .missed
  else
    match list.getLast? with
    | some last => if atOrBefore w.start (last.outScan + BitVec.ofNat 32 tol) then some .shared else none
    | none => none

/-- A window decided at prediction: DONE, both rails decided with its condition (R91). -/
def Window.decidedAs (c : Condition) (w : Window) : Window :=
  { w with
    state := .done
    north := { w.north with decided := some c }
    south := { w.south with decided := some c } }

/-- A window placed at the tail of the list when it has room; when its covered span begins at or before the current T the
partial block of each active channel is emptied (R84, R91). -/
def ZoneUnit.place (k : ZoneTables) (time : Scan) (w : Window) (u : ZoneUnit) : ZoneUnit :=
  if u.windows.length < windowCapacity then
    let u : ZoneUnit := { u with windows := u.windows ++ [w] }
    if atOrBefore (w.inScan - BitVec.ofNat 32 k.tol) time then u.forActive k fun _ c => c.dropBlock else u
  else u

/-- A prediction at a Zone Unit: the unit after it, and the estimates of a window decided at prediction (R91). -/
def ZoneUnit.predict (k : ZoneTables) (time : Scan) (nMin : Nat) (w : Window) (u : ZoneUnit) : ZoneUnit × List Handed :=
  match predictionCondition time nMin k.tol u.windows w with
  | some c =>
    (u.place k time (w.decidedAs c),
      [bareEstimate w (channelOf k.index .north) c, bareEstimate w (channelOf k.index .south) c])
  | none => (u.place k time w, [])

/-! ## Cancellation, withdrawal, emptying (R99 to R101) -/

/-- The MOTION estimates of the undecided rails of a removed window (R99). -/
def motionEstimates (z : Fin 4) (w : Window) : List Handed :=
  (if w.north.decided.isNone then [bareEstimate w (channelOf z .north) .motion] else []) ++
    (if w.south.decided.isNone then [bareEstimate w (channelOf z .south) .motion] else [])

/-- Cancellation at a Zone Unit (R99). -/
def ZoneUnit.cancel (z : Fin 4) (u : ZoneUnit) : ZoneUnit × List Handed :=
  ({ u with windows := [] }, u.windows.flatMap (motionEstimates z))

/-- Removal of every window of an ordinal, of one generation where one is named (R100). -/
def ZoneUnit.withdraw (ordinal : Nat) (generation : Option Nat) (u : ZoneUnit) : ZoneUnit :=
  { u with
    windows := u.windows.filter fun w => !(w.ordinal == ordinal && (generation.map (w.generation == ·)).getD true) }

/-- The Window List emptied (R101). -/
def ZoneUnit.empty (u : ZoneUnit) : ZoneUnit := { u with windows := [] }

/-- A loss of sync at a Zone Unit in use (R24, R81): the list emptied, the partial block and run of each active channel
discarded, presence kept. A channel without a Channel Record has nothing to discard, and keeps its state (R82). -/
def ZoneUnit.loseSync (k : ZoneTables) (u : ZoneUnit) : ZoneUnit := u.empty.forActive k fun _ c => c.dropPartial

/-- An update of every Zone Unit. -/
def mapZones (f : Fin 4 → ZoneUnit → ZoneUnit) (s : State) : State :=
  { s with zones := #v[f 0 s.zones[0], f 1 s.zones[1], f 2 s.zones[2], f 3 s.zones[3]] }

/-- A channel reloaded from its record: baseline 8 × zero_cal, or 0 where none is held, all else as after reset (R81). -/
def Channel.reloaded (rec : Option ChannelRecord) : Channel :=
  { Channel.reset with baseline := (rec.map fun r => 8 * r.zeroCal).getD 0 }

/-- Every channel reloaded and every Window List empty, as at the end of the start-up load and at RESTART (R81). -/
def reloadZones (s : State) : State :=
  mapZones
    (fun z _ =>
      { north := Channel.reloaded s.cal.channels[channelOf z .north]
        south := Channel.reloaded s.cal.channels[channelOf z .south]
        windows := [] })
    s

/-- The channel reloaded after an accepted WRITE CHANNEL: presence kept (R81). -/
def Channel.rewritten (rec : ChannelRecord) (c : Channel) : Channel :=
  { c with baseline := 8 * rec.zeroCal, zeroFault := false, blockCount := 0, blockSum := 0, run := none }

/-! ## The Zone Units and the Axle Tracker -/

/-- The estimate is written into the record when all of R76 hold, with the flags it adds. -/
def AxleRecord.takeEstimate (lastOn : Nat) (h : Handed) (a : AxleRecord) : AxleRecord :=
  if a.ordinal ≤ lastOn ∧ h.generation = a.generation ∧ a.finalized = false ∧ a.estimates[h.channel] = none then
    { a with
      estimates := a.estimates.set h.channel (some { condition := h.condition, mass := h.mass })
      flags :=
        a.flags ||| axleFlagIf h.belowZero .underzero ||| axleFlagIf h.aboveRange .overrange |||
          axleFlagIf h.zeroSuspect .zeroSuspect }
  else a

/-- An estimate handed to the Axle Tracker (R76); one with a condition other than VALID is an occurrence of ZONE_REJECTS
(R97). -/
def handEstimate (h : Handed) (s : State) : State :=
  let s := if h.condition = .valid then s else countEvent .zoneRejects 1 s
  modifyAxle h.ordinal (AxleRecord.takeEstimate s.axles.lastOn h) s

/-- Estimates handed in turn. -/
def handEstimates (hs : List Handed) (s : State) : State := hs.foldl (fun s h => handEstimate h s) s

/-- The unit of a zone replaced. -/
def setZone (z : Fin 4) (u : ZoneUnit) (s : State) : State := { s with zones := s.zones.set z u }

/-- A phantom on a rail of a zone (R95). -/
def phantom (z : Fin 4) (r : Rail) (s : State) : State :=
  let s := countEvent .phantoms 1 s
  if s.train.state = .running ∧ (s.train.ctx.map TrainContext.disturbed).getD false = false then
    raiseCause .phantomWheel (channelOf z r).val s
  else s

/-- One accepted scan at zone z (R83). -/
def scanZone (t : Scan) (missing : Option (Scan × Scan)) (samples : List Sample) (s : State) (z : Fin 4) : State :=
  match samples.drop (2 * z.val) with
  | n :: o :: _ =>
    let r := s.zones[z].scan (s.cal.zoneTables z) t missing n o
    let s := handEstimates r.handed (setZone z r.unit s)
    let s := r.phantoms.foldl (fun s p => phantom z p s) s
    r.failing.foldl (fun s p => raiseCause .channelFault (channelOf z p).val s) s
  | _ => s

/-- An accepted scan at every Zone Unit in use, in the order of the zones (R83; notes/assumptions/11.md). -/
def scanZones (t : Scan) (missing : Option (Scan × Scan)) (samples : List Sample) (s : State) : State :=
  s.cal.zonesInUse.foldl (scanZone t missing samples) s

/-- Every window in every Window List cancelled with MOTION (R54, R56, R99). -/
def cancelWindows (s : State) : State :=
  ([0, 1, 2, 3] : List (Fin 4)).foldl
    (fun s z =>
      let r := s.zones[z].cancel z
      handEstimates r.2 (setZone z r.1 s))
    s

/-- Every Window List emptied, no estimate handed on (R59, R101). -/
def emptyWindows (s : State) : State := mapZones (fun _ u => u.empty) s

/-- The windows of an ordinal withdrawn (R100). -/
def withdrawWindows (ordinal : Nat) (generation : Option Nat) (s : State) : State :=
  mapZones (fun _ u => u.withdraw ordinal generation) s

/-- The window that zone z predicts for an entry (R90), by the direction of the train. -/
def zoneWindow (g : GeometryRecord) (d : Direction) (trimEighths : Nat) (span : ZoneSpan) (ordinal generation : Nat)
    (tRef : T16) (pace : Nat) : Window :=
  predictedWindow ordinal generation (edgeTime tRef (distIn g d span) pace) (edgeTime tRef (distOut g d span) pace)
    trimEighths

/-- The prediction of one zone for an entry (R90, R91). -/
def predictZone (ordinal generation : Nat) (tRef : T16) (pace : Nat) (s : State) (z : Fin 4) : State :=
  match s.cal.geometry.bind fun g => (g.zones[z.val]?).map fun span => (g, span) with
  | some (g, span) =>
    let l := s.cal.limits
    let w := zoneWindow g s.direction l.trimEighths span ordinal generation tRef pace
    let r := s.zones[z].predict (s.cal.zoneTables z) s.rx.time l.nMin w
    handEstimates r.2 (setZone z r.1 s)
  | none => s

/-- One window predicted per zone in use (R70, R90). -/
def predictWindows (ordinal generation : Nat) (tRef : T16) (pace : Nat) (s : State) : State :=
  s.cal.zonesInUse.foldl (predictZone ordinal generation tRef pace) s

end Sys2Proof.Machine
end

