-- ==== Sys2Proof/Machine/Calibration.lean ====
section
/-! DEFINITION. Reset, the start-up load, the metrological writes, the commit and CAL_EN (chapters 1 and 8). -/

namespace Sys2Proof.Machine

/-! ## Power-on and the start-up load (R125) -/

/-- What a reset makes of the image: a write under way is interrupted and leaves it failing its check (R123). -/
def StoreImage.interrupted : StoreImage → StoreImage
  | .writing _ => .damaged
  | x => x

/-- Power-on or the reset input (R125, R173): every volatile state at its initial value; the store, the levels of the two
inputs and the adjustment counter (R120) stand (notes/assumptions/7.md, 8.md). -/
def powerOn (s : State) : State :=
  { State.reset with
    calEn := s.calEn
    hold := s.hold
    cal := { Calibration.reset with counter := s.cal.counter }
    store := { s.store with image := s.store.image.interrupted }
    pending := s.pending }

/-- POWER_ON_RESET (R125). -/
def execPowerOnReset (s : State) : Host.Outcome State Fault Refusal := .next (powerOn s)

/-- The condition of the image at the start-up load (R124). -/
inductive ImageCondition where
  | blank
  | good (t : ImageTables)
  | failed
  deriving DecidableEq, Repr

/-- The image judged; a read that the store cannot complete is judged failed (R124, R185). -/
def StoreImage.judge (readable : Bool) (x : StoreImage) : ImageCondition :=
  if readable = false then .failed
  else
    match x with
    | .blank => .blank
    | .held bytes =>
      match parseImage bytes with
      | some t => .good t
      | none => .failed
    | .writing _ | .damaged => .failed

/-- The working tables of a good image (R125). -/
def ImageTables.calibration (t : ImageTables) (counter : Nat) : Calibration :=
  { geometry := some t.geometry, channels := t.channels, curve := some t.curve, limits := t.limits, origin := .loaded
    calPending := false, counter, committing := none }

/-- The load: the counter word, then the image by its condition (R120, R125). -/
def loadStore (readable : Bool) (s : State) : State :=
  let counter := s.store.word.getD 0
  match s.store.image.judge readable with
  | .good t => { s with cal := t.calibration counter }
  | .blank => { s with cal := { Calibration.reset with counter } }
  | .failed => raiseCause .storeFault faultStartUp { s with cal := { Calibration.reset with counter } }

/-- START_UP_LOAD (R125): the load, the baselines (R81), readiness (R11), the end of STARTING. -/
def execStartUpLoad (readable : Bool) (s : State) : Host.Outcome State Fault Refusal :=
  .next
    (if s.part = .starting then boundary (evaluateReadiness (reloadZones (loadStore readable s))) else s)

/-! ## Protection (R118) -/

/-- The first condition of R118 that holds. -/
def State.protection (s : State) : Option Status :=
  if s.calEn = false then some .locked
  else if s.busyTrain then some .busyTrain
  else if s.cal.committing.isSome then some .busyCommit
  else none

/-- A request admitted by the protection goes on; another is refused with its status (R118). -/
def guarded (r : Request) (f : State → State) (s : State) : State :=
  match s.protection with
  | some st => answer r st [] s
  | none => f s

/-- An accepted metrological write: the tables changed, CAL_PENDING set, readiness evaluated, answered OK (R10, R115 to
R117, R119). -/
def acceptWrite (r : Request) (f : Calibration → Calibration) (s : State) : State :=
  answer r .ok [] (evaluateReadiness { s with cal := { f s.cal with calPending := true } })

/-! ## The four metrological writes -/

/-- WRITE GEOMETRY executed (R7, R8, R10). -/
def writeGeometry (r : Request) (s : State) : State :=
  guarded r
    (fun s =>
      match parseGeometry r.payload with
      | none => answer r .malformed [] s
      | some g =>
        match geometryFault s.cal.limits.minZones g with
        | some n => answerBadValue r n s
        | none => acceptWrite r (fun c => { c with geometry := some g }) s)
    s

/-- The zone of a channel (R2). -/
def channelZone (ch : Fin 8) : Fin 4 := ⟨ch.val / 2, by omega⟩

/-- The rail of a channel (R2). -/
def channelRail (ch : Fin 8) : Rail := if ch.val % 2 = 0 then .north else .south

/-- The channel of a Zone Unit reloaded after an accepted WRITE CHANNEL (R81). -/
def reloadChannel (ch : Fin 8) (rec : ChannelRecord) (s : State) : State :=
  let u := s.zones[channelZone ch]
  setZone (channelZone ch) (u.setChannel (channelRail ch) (Channel.rewritten rec (u.channel (channelRail ch)))) s

/-- WRITE CHANNEL executed (R115). -/
def writeChannel (r : Request) (s : State) : State :=
  guarded r
    (fun s =>
      if r.payload.isEmpty then answer r .malformed [] s
      else if h : natAt r.payload 0 1 < 8 then
        if r.payload.length ≠ 14 then answer r .malformed [] s
        else
          let rec' := parseChannel (r.payload.drop 1)
          match channelFault rec' with
          | some n => answerBadValue r n s
          | none =>
            acceptWrite r (fun c => { c with channels := c.channels.set (natAt r.payload 0 1) (some rec') h })
              (reloadChannel ⟨natAt r.payload 0 1, h⟩ rec' s)
      else answer r .badIndex [] s)
    s

/-- WRITE SPEED CURVE executed (R116). -/
def writeSpeedCurve (r : Request) (s : State) : State :=
  guarded r
    (fun s =>
      if r.payload.length ≠ 32 then answer r .malformed [] s
      else
        match curveFault (parseCurve r.payload) with
        | some n => answerBadValue r n s
        | none => acceptWrite r (fun c => { c with curve := some (parseCurve r.payload) }) s)
    s

/-- The largest min_zones: Z of the working Geometry Record, 4 while it is absent (R117). -/
def Calibration.maxMinZones (c : Calibration) : Nat := (c.geometry.map fun g => g.zones.length).getD 4

/-- WRITE LIMITS executed (R117). -/
def writeLimits (r : Request) (s : State) : State :=
  guarded r
    (fun s =>
      if r.payload.length ≠ 14 then answer r .malformed [] s
      else
        match limitsFault s.cal.maxMinZones (parseLimits r.payload) with
        | some n => answerBadValue r n s
        | none => acceptWrite r (fun c => { c with limits := parseLimits r.payload, origin := .written }) s)
    s

/-- WRITE_GEOMETRY. -/
def execWriteGeometry (s : State) : Host.Outcome State Fault Refusal :=
  .next (onHead (fun c => c == codeWriteGeometry) writeGeometry s)

/-- WRITE_CHANNEL. -/
def execWriteChannel (s : State) : Host.Outcome State Fault Refusal :=
  .next (onHead (fun c => c == codeWriteChannel) writeChannel s)

/-- WRITE_SPEED_CURVE. -/
def execWriteSpeedCurve (s : State) : Host.Outcome State Fault Refusal :=
  .next (onHead (fun c => c == codeWriteSpeedCurve) writeSpeedCurve s)

/-- WRITE_LIMITS. -/
def execWriteLimits (s : State) : Host.Outcome State Fault Refusal :=
  .next (onHead (fun c => c == codeWriteLimits) writeLimits s)

/-! ## The commit (R121, R122) -/

/-- The acceptance of a commit, as one step: the reservation with the request's tag, the counter word and its working
copy, and the image captured from the working tables (R120, R121, R185). -/
def acceptCommit (tag : Byte) (g : GeometryRecord) (curve : Vector CurvePoint 8) (s : State) : State :=
  { s with
    cal := { s.cal with counter := s.cal.counter + 1, committing := some tag }
    store :=
      { word := some (s.cal.counter + 1), image := .writing (imageBytes g s.cal.channels curve s.cal.limits) } }

/-- A READY part holds a Geometry Record and a Speed Curve (R11); without them the commit is NOT_READY. -/
def Calibration.committable (c : Calibration) : Option (GeometryRecord × Vector CurvePoint 8) :=
  match c.geometry, c.curve with
  | some g, some k => some (g, k)
  | _, _ => none

/-- COMMIT CALIBRATION executed (R121); `wordTaken` says whether the store takes the counter word. -/
def commitCalibration (wordTaken : Bool) (r : Request) (s : State) : State :=
  guarded r
    (fun s =>
      if r.payload.isEmpty = false then answer r .malformed [] s
      else if s.part ≠ .ready then answer r .notReady [] s
      else
        match s.cal.committable with
        | none => answer r .notReady [] s
        | some (g, k) =>
          if 65535 ≤ s.cal.counter then answer r .full [] s
          else if wordTaken then acceptCommit r.tag g k s
          else answer r .storeFault [] (raiseCause .storeFault faultCommit s))
    s

/-- COMMIT_CALIBRATION (R121). -/
def execCommitCalibration (wordTaken : Bool) (s : State) : Host.Outcome State Fault Refusal :=
  .next (onHead (fun c => c == codeCommitCalibration) (commitCalibration wordTaken) s)

/-- The image after the store's completion (R122). -/
def StoreImage.completed (verified : Bool) (x : StoreImage) : StoreImage :=
  match x, verified with
  | .writing bytes, true => .held bytes
  | .writing _, false => .damaged
  | x, _ => x

/-- The completion of the commit of a tag (R122). -/
def completeCommit (verified : Bool) (tag : Byte) (s : State) : State :=
  let s : State :=
    { s with
      cal := { s.cal with committing := none, calPending := if verified then false else s.cal.calPending }
      store := { s.store with image := s.store.image.completed verified } }
  let s := if verified then s else raiseCause .storeFault faultCommit s
  placeResponse
    { tag, code := codeCommitCalibration, status := if verified then .ok else .storeFault, payload := [] } s

/-- COMMIT_COMPLETE (R122): with no commit in flight it does not take place (notes/assumptions/1.md). -/
def execCommitComplete (verified : Bool) (s : State) : Host.Outcome State Fault Refusal :=
  .next
    (match s.cal.committing with
      | some tag => boundary (completeCommit verified tag s)
      | none => s)

/-! ## CAL_EN (R118) -/

/-- CAL_EN_CHANGE (R118, R126): the new level, and outside STARTING a CAL_EN_CHANGED cause. The same level is no change
(notes/assumptions/16.md). -/
def execCalEnChange (level : Bool) (s : State) : Host.Outcome State Fault Refusal :=
  .next
    (if level = s.calEn then s
      else if s.part = .starting then { s with calEn := level }
      else boundary (raiseCause .calEnChanged level.toNat { s with calEn := level }))

end Sys2Proof.Machine
end

