-- ==== Sys2Proof/Machine/Assembly.lean ====
section
/-! DEFINITION. Vehicle Assembly (chapter 9) and the resolution of identities (R149 to R152). -/

namespace Sys2Proof.Machine

/-! ## Vehicles of the Assembly List -/

/-- The last ordinal of a vehicle. -/
def Vehicle.last (v : Vehicle) : Nat := v.first + v.count - 1

/-- The vehicle is COMPLETE. -/
def Vehicle.isComplete (v : Vehicle) : Bool :=
  match v.state with
  | .complete _ => true
  | .formed => false

/-- The vehicle waits for its identity (R149). -/
def Vehicle.isWaiting (v : Vehicle) : Bool :=
  match v.resolution with
  | .waiting _ => true
  | _ => false

/-- The vehicle's resolution is PRESENT or ABSENT (R153). -/
def Vehicle.isResolved (v : Vehicle) : Bool :=
  match v.resolution with
  | .present _ | .absent => true
  | _ => false

/-- The vehicle of a sequence number, if the list holds it. -/
def Assembler.find (x : Assembler) (sequence : Nat) : Option Vehicle := x.list.find? fun v => v.sequence == sequence

/-- An update of the vehicle of a sequence number. -/
def modifyVehicle (sequence : Nat) (f : Vehicle → Vehicle) (s : State) : State :=
  { s with asm := { s.asm with list := s.asm.list.map fun v => if v.sequence = sequence then f v else v } }

/-! ## Identities (R149 to R152) -/

/-- The entry at a position, 1 upward (R145). -/
def entryAt (list : List ConsistEntry) (position : Nat) : Option ConsistEntry :=
  match position with
  | 0 => none
  | n + 1 => list[n]?

/-- An expected field of the entry differs from the vehicle (R149). -/
def typeMismatch (e : ConsistEntry) (v : Vehicle) : Bool :=
  (e.typeCode.map (· != v.typeCode)).getD false || (e.kind.map (· != v.kind)).getD false

/-- Resolved PRESENT with the entry's identity (R149). -/
def Vehicle.resolvePresent (e : ConsistEntry) (v : Vehicle) : Vehicle :=
  { v with
    resolution := .present e.identity
    idFlags := v.idFlags ||| vehicleFlagIf (typeMismatch e v) .typeMismatch }

/-- Resolved ABSENT with the flag that says why (R149, R150). -/
def Vehicle.resolveAbsent (f : VehicleFlag) (v : Vehicle) : Vehicle :=
  { v with resolution := .absent, idFlags := v.idFlags ||| f.mask }

/-- Resolved by the list if it holds the vehicle's position, else ABSENT with a flag (R149, R152). -/
def Vehicle.resolveFrom (list : List ConsistEntry) (f : VehicleFlag) (v : Vehicle) : Vehicle :=
  match entryAt list v.sequence with
  | some e => v.resolvePresent e
  | none => v.resolveAbsent f

/-- The first waiting vehicle of a list in sequence order, the one of the lowest sequence, resolved ABSENT with ID_FORCED
(R150). -/
def forceLowest : List Vehicle → List Vehicle
  | [] => []
  | v :: rest => if v.isWaiting then v.resolveAbsent .idForced :: rest else v :: forceLowest rest

/-- How many vehicles wait (R150). -/
def waitingCount (list : List Vehicle) : Nat := (list.filter Vehicle.isWaiting).length

/-- A vehicle begins to wait: while 4 already wait the lowest is first forced out (R150). -/
def beginWait (sequence : Nat) (s : State) : State :=
  let list := if waitingCapacity ≤ waitingCount s.asm.list then forceLowest s.asm.list else s.asm.list
  modifyVehicle sequence
    (fun v => { v with resolution := .waiting (s.rx.time + BitVec.ofNat 32 s.settings.idWait) })
    { s with asm := { s.asm with list } }

/-- The Consist Unit's act on a vehicle handed to it COMPLETE (R149). -/
def resolveAtCompletion (sequence : Nat) (s : State) : State :=
  match s.asm.find sequence with
  | none => s
  | some v =>
    match v.resolution with
    | .unresolved =>
      if s.train.state = .ending then modifyVehicle sequence (Vehicle.resolveFrom s.consist .idMissing) s
      else
        match entryAt s.consist sequence with
        | some e => modifyVehicle sequence (Vehicle.resolvePresent e) s
        | none =>
          if s.settings.idWait = 0 then modifyVehicle sequence (Vehicle.resolveAbsent .idTimeout) s
          else beginWait sequence s
    | _ => s

/-- Every waiting vehicle resolved at the entry into ENDING (R152). -/
def resolveWaiting (s : State) : State :=
  { s with
    asm :=
      { s.asm with
        list := s.asm.list.map fun v => if v.isWaiting then v.resolveFrom s.consist .idMissing else v } }

/-! ## Completion and totals (R136 to R139) -/

/-- The records of a vehicle's axles. -/
def AxleTracker.recordsOf (x : AxleTracker) (v : Vehicle) : List (Option AxleRecord) :=
  (List.range v.count).map fun i => x.find (v.first + i)

/-- The net (R137). -/
def netOf (gross tare : Option Nat) : Option Nat :=
  match gross, tare with
  | some g, some t => some (g - t)
  | _, _ => none

/-- The gross is present, the tare is present, and the gross is below it (R137). -/
def underTare (gross tare : Option Nat) : Bool :=
  match gross, tare with
  | some g, some t => decide (g < t)
  | _, _ => false

/-- The gross is present and greater than a maximum gross that is present (R137). -/
def overload (gross maxGross : Option Nat) : Bool :=
  match gross, maxGross with
  | some g, some m => decide (m < g)
  | _, _ => false

/-- |a − b| × 256 is greater than gross × limit (R138). -/
def imbalanced (limit gross a b : Nat) : Bool := decide (gross * limit < absDiff a b * 256)

/-- The totals, speed and flags of a vehicle from its axles' records (R137 to R139). -/
def vehicleTotals (limits : Limits) (v : Vehicle) (recs : List (Option AxleRecord)) : VehicleTotals :=
  let loads := recs.map fun r => r.bind AxleRecord.axleLoad
  let gross := sumPresent loads
  let nTotal := gross.bind fun _ => sumPresent (recs.map fun r => r.bind AxleRecord.north)
  let sTotal := gross.bind fun _ => sumPresent (recs.map fun r => r.bind AxleRecord.south)
  let present := loads.filterMap id
  let half := v.count / 2
  let front := (present.take half).sum
  let rear := (present.drop (present.length - half)).sum
  let side := match gross with
    | some g => imbalanced limits.lrLimit g (nTotal.getD 0) (sTotal.getD 0)
    | none => false
  let ends := match gross with
    | some g => imbalanced limits.endLimit g front rear
    | none => false
  { gross
    nTotal
    sTotal
    net := netOf gross v.tare
    speed := roundHalfUp ((recs.filterMap id).map AxleRecord.speed).sum v.count
    flags :=
      unionAxleFlags (recs.filterMap id) ||| vehicleFlagIf v.unmatched .unmatched
        ||| vehicleFlagIf v.uncertain .spacingUncertain
        ||| vehicleFlagIf gross.isNone .incomplete
        ||| vehicleFlagIf (underTare gross v.tare) .underTare
        ||| vehicleFlagIf (overload gross v.maxGross) .overload
        ||| vehicleFlagIf side .sideImbalance
        ||| vehicleFlagIf ends .endImbalance }

/-- A vehicle becomes COMPLETE and is handed to the Consist Unit (R136). -/
def completeVehicle (sequence : Nat) (s : State) : State :=
  resolveAtCompletion sequence
    (modifyVehicle sequence
      (fun v => { v with state := .complete (vehicleTotals s.cal.limits v (s.axles.recordsOf v)) }) s)

/-- The clearance of an ordinal reported to the Assembler: the FORMED vehicle whose last axle it is becomes COMPLETE
(R136). -/
def reportClearance (ordinal : Nat) (s : State) : State :=
  match s.asm.list.find? fun v => v.last == ordinal && !v.isComplete with
  | some v => completeVehicle v.sequence s
  | none => s

/-! ## Matching (R131, R132) -/

/-- The judgment of a Type Table entry (R131). -/
inductive Judgment where
  | fails
  | undecided
  | fits (uncertain : Bool)
  deriving DecidableEq, Repr

/-- An ordinal is entered while it is at most last_on (R65, R130). -/
def AxleTracker.entered (x : AxleTracker) (ordinal : Nat) : Bool := decide (ordinal ≤ x.lastOn)

/-- The spacing before an ordinal, as its record holds it (R131). -/
def AxleTracker.spacingAt (x : AxleTracker) (ordinal : Nat) : Option Nat := (x.find ordinal).bind AxleRecord.spacing

/-- A known spacing of an entered ordinal for which the test holds. -/
def AxleTracker.knownAnd (x : AxleTracker) (test : Nat → Bool) (ordinal : Nat) : Bool :=
  x.entered ordinal && ((x.spacingAt ordinal).map test).getD false

/-- The ordinal is entered and its spacing is unknown (R131). -/
def AxleTracker.unknownSpacing (x : AxleTracker) (ordinal : Nat) : Bool :=
  x.entered ordinal && (x.spacingAt ordinal).isNone

/-- One of the vehicle's own spacings is known and outside its band (R131). -/
def AxleTracker.ownSpacingFails (x : AxleTracker) (tolerance : Nat) : Nat → List Nat → Bool
  | _, [] => false
  | j, s :: rest =>
    x.knownAnd (fun d => decide (d + tolerance < s) || decide (s + tolerance < d)) j
      || x.ownSpacingFails tolerance (j + 1) rest

/-- An entry judged for the first unassigned ordinal k (R131); at the flush of a train ending with QUIET the ordinals
beyond last_on are read as R144 gives. -/
def AxleTracker.judge (x : AxleTracker) (flush : Bool) (k : Nat) (t : VehicleType) : Judgment :=
  let n := t.axles
  if x.ownSpacingFails t.tolerance (k + 1) t.spacings || x.knownAnd (fun d => decide (d < t.gapMin)) (k + n) then .fails
  else
    let uncertain := (List.range n).any fun i => x.unknownSpacing (k + 1 + i)
    if flush then if x.entered (k + n - 1) then .fits uncertain else .fails
    else if x.entered (k + n) then .fits uncertain
    else .undecided

/-- What the reading of the Type Table settles (R132). -/
inductive TypeChoice where
  | wait
  | take (t : VehicleType) (uncertain : Bool)
  | allFailed
  deriving DecidableEq, Repr

/-- The entries read in index order, empty ones passed over (R132). -/
def AxleTracker.chooseType (x : AxleTracker) (flush : Bool) (k : Nat) : List (Option VehicleType) → TypeChoice
  | [] => .allFailed
  | none :: rest => x.chooseType flush k rest
  | some t :: rest =>
    match x.judge flush k t with
    | .fails => x.chooseType flush k rest
    | .undecided => .wait
    | .fits u => .take t u

/-- The UNMATCHED split from k, looking at k + i (R134, R144): the axle count and SPACING_UNCERTAIN, or none to wait. -/
def AxleTracker.split (x : AxleTracker) (flush : Bool) (splitGap k : Nat) : Nat → Nat → Option (Nat × Bool)
  | 0, _ => none
  | fuel + 1, i =>
    if x.entered (k + i) then
      if i = 8 then some (8, false)
      else
        match x.spacingAt (k + i) with
        | none => some (i, true)
        | some d => if splitGap ≤ d then some (i, false) else x.split flush splitGap k fuel (i + 1)
    else if flush then some (i, false)
    else none

/-! ## Formation (R130, R133 to R135, R144) -/

/-- The flush of a train ending with QUIET is under way (R144). -/
def State.quietFlush (s : State) : Bool :=
  s.train.state == .ending && (s.train.ctx.bind TrainContext.endReason) == some .quiet

/-- The train state lets the Assembler form: RUNNING, STANDING, or ENDING with QUIET (R130). -/
def State.mayForm (s : State) : Bool := s.train.state == .running || s.train.state == .standing || s.quietFlush

/-- The vehicle to be formed from the first unassigned ordinal now, if one can be (R130 to R135). -/
def State.formable (s : State) : Option Vehicle :=
  let k := s.asm.firstFree
  if s.mayForm && s.axles.entered k && decide (s.asm.list.length < vehicleCapacity) then
    match s.axles.chooseType s.quietFlush k s.asm.types.toList with
    | .wait => none
    | .take t u =>
      some
        { sequence := s.asm.nextSeq, first := k, count := t.axles, typeCode := t.code, kind := t.kind, tare := t.tare
          maxGross := t.maxGross, unmatched := false, uncertain := u, state := .formed, resolution := .unresolved
          idFlags := 0 }
    | .allFailed =>
      (s.axles.split s.quietFlush s.settings.splitGap k 8 1).map fun r =>
        { sequence := s.asm.nextSeq, first := k, count := r.1, typeCode := 0, kind := .other, tare := none
          maxGross := none, unmatched := true, uncertain := r.2, state := .formed, resolution := .unresolved
          idFlags := 0 }
  else none

/-- The vehicle sequence written into, or cleared from, the records of a vehicle's axles (R133, R141). -/
def AxleTracker.assign (x : AxleTracker) (v : Vehicle) (sequence : Option Nat) : AxleTracker :=
  { x with
    queue := x.queue.map fun a => if v.first ≤ a.ordinal ∧ a.ordinal ≤ v.last then { a with vehicle := sequence } else a }

/-- A vehicle formed: placed at the tail, its axles assigned, completed at once if its last axle has cleared (R133). -/
def formVehicle (v : Vehicle) (s : State) : State :=
  let s' : State :=
    { s with
      asm := { s.asm with list := s.asm.list ++ [v], nextSeq := s.asm.nextSeq + 1, firstFree := v.first + v.count }
      axles := s.axles.assign v (some v.sequence) }
  if v.last < s.axles.firstOn then completeVehicle v.sequence s' else s'

/-- A consideration forms vehicles in turn until it must wait (R130); the list takes at most 16. -/
def considerFrom : Nat → State → State
  | 0, s => s
  | fuel + 1, s =>
    match s.formable with
    | some v => considerFrom fuel (formVehicle v s)
    | none => s

/-- A consideration (R130). -/
def considerFormation (s : State) : State := considerFrom vehicleCapacity s

/-! ## Changes after formation (R140, R141) -/

/-- A COMPLETE vehicle reverted: FORMED again, its wait cancelled, a resolution PRESENT or ABSENT kept (R140, R151). -/
def Vehicle.revert (v : Vehicle) : Vehicle :=
  { v with
    state := .formed
    resolution := match v.resolution with
      | .waiting _ => .unresolved
      | r => r }

/-- The reversion of the vehicle a returned axle is assigned to, if it is COMPLETE (R75, R140). -/
def revertVehicle (sequence : Nat) (s : State) : State :=
  modifyVehicle sequence (fun v => if v.isComplete then v.revert else v) s

/-- The dissolution asked for at a backout, naming the ordinal before it (R72, R141). -/
def dissolveVehicle (ordinal : Nat) (s : State) : State :=
  match s.asm.list.getLast? with
  | some v =>
    if !v.isComplete && v.last == ordinal then
      { s with
        asm := { s.asm with list := s.asm.list.dropLast, nextSeq := s.asm.nextSeq - 1, firstFree := v.first }
        axles := s.axles.assign v none }
    else s
  | none => s

end Sys2Proof.Machine
end

