-- ==== Sys2Proof/Machine/Detectors.lean ====
section
/-! DEFINITION. Detector Pair Units and the Pace Tracker (chapter 3). -/

namespace Sys2Proof.Machine

/-! ## Passages (R34 to R37) -/

/-- The pair of a detector (R30). -/
def Detector.pair : Detector → Pair
  | .w1 | .w2 => .west
  | .e1 | .e2 => .east

/-- The sense of a passage from its first detector: eastward for W1 then W2 and for E1 then E2 (R34). -/
def Detector.senseFrom : Detector → Sense
  | .w1 | .e1 => .eastward
  | .w2 | .e2 => .westward

/-- A passage (R34). -/
structure Passage where
  pair : Pair
  first : Detector
  second : Detector
  sense : Sense
  firstTime : T16
  secondTime : T16
  transit : Nat
  pace : Option Nat
  speed : Option Nat
  deriving DecidableEq, Repr

/-- Δ16: the signed difference, clamped below at 1 (R35). -/
def transitTime (first second : T16) : Nat := max 1 (t16Diff second first).toNat

/-- d: d_W at the west pair and d_E at the east pair (R36). -/
def GeometryRecord.pairSpacing (g : GeometryRecord) : Pair → Nat
  | .west => g.dW
  | .east => g.dE

/-- P (R36). -/
def paceOf (transit d : Nat) : Nat := clamp 1 16777215 (roundHalfUp (2000 * transit) d)

/-- v (R37). -/
def speedOf (fScan pace : Nat) : Nat := clamp 0 65535 (roundHalfUp (1152 * fScan) pace)

/-- The passage of the two events, with the pace and speed of the working Geometry Record (R34 to R37). -/
def makePassage (geometry : Option GeometryRecord) (y : Detector) (ty : T16) (x : Detector) (tx : T16) : Passage :=
  let transit := transitTime ty tx
  let pace := geometry.map fun g => paceOf transit (g.pairSpacing x.pair)
  { pair := x.pair
    first := y
    second := x
    sense := y.senseFrom
    firstTime := ty
    secondTime := tx
    transit
    pace
    speed := geometry.map fun g => speedOf g.fScan (paceOf transit (g.pairSpacing x.pair)) }

/-! ## The pair unit (R31 to R34) -/

/-- What an event makes at a pair unit: the unit after it, whether it raises DETECTOR_SUSPECT, and the pending event
that it completes a passage with. -/
structure PairResult where
  unit : PairUnit
  suspect : Bool
  joined : Option (Detector × T16)
  deriving DecidableEq, Repr

/-- A wheel event at a pair unit (R31 to R34). -/
def PairUnit.take (x : Detector) (t : T16) (u : PairUnit) : PairResult :=
  match u.pending with
  | none => { unit := { u with pending := some (x, t) }, suspect := false, joined := none }
  | some (y, ty) =>
    if y = x then
      if u.rockCount + 1 = 8 then { unit := { pending := none, rockCount := 0 }, suspect := true, joined := none }
      else { unit := { pending := none, rockCount := u.rockCount + 1 }, suspect := false, joined := none }
    else { unit := { pending := none, rockCount := 0 }, suspect := false, joined := some (y, ty) }

/-- The unit of a pair. -/
def State.pairUnit (s : State) : Pair → PairUnit
  | .west => s.west
  | .east => s.east

/-- The state with the unit of a pair replaced. -/
def setPairUnit (p : Pair) (u : PairUnit) (s : State) : State :=
  match p with
  | .west => { s with west := u }
  | .east => { s with east := u }

/-! ## The Pace Tracker (R41 to R46) -/

/-- dev, in sixty-fourths of the previous pace (R42). -/
def paceDeviation (p prev : Nat) : Nat := absDiff p prev * 64 / prev

/-- The lock state from the runs (R43). -/
def lockOf (fine coarse : Nat) : Lock :=
  if 4 ≤ fine then .fine else if 2 ≤ coarse then .coarse else .none

/-- The running pace of a history: the rounded mean of its four newest paces, when it holds at least four (R44). -/
def runningPace (history : List Nat) : Option Nat :=
  match history.reverse with
  | a :: b :: c :: d :: _ => some ((a + b + c + d + 2) / 4)
  | _ => none

/-- The runs after a comparison of deviation `dev`: the coarse run and the fine run, each held at 15 (R40, R42). -/
def runsAfter (dev coarse fine : Nat) : Nat × Nat :=
  if dev ≤ 1 then (min 15 (coarse + 1), min 15 (fine + 1)) else if dev ≤ 4 then (min 15 (coarse + 1), 0) else (0, 0)

/-- An entry pace taken (R41 to R44). -/
def PaceTracker.take (p : Nat) (t : PaceTracker) : PaceTracker :=
  let h := t.history ++ [p]
  let history := h.drop (h.length - 5)
  let runs := match t.history.getLast? with
    | some prev => runsAfter (paceDeviation p prev) t.coarse t.fine
    | none => (t.coarse, t.fine)
  { history, coarse := runs.1, fine := runs.2, lock := lockOf runs.2 runs.1, running := runningPace history }

/-- P_u and its source for an entry of own pace p, after it was taken (R45). -/
def PaceTracker.report (p : Nat) (t : PaceTracker) : Nat × PaceSource :=
  match t.lock, t.running with
  | .fine, some q => (q, .running)
  | _, _ => (p, .own)

/-- A lock reset (R46). -/
def lockReset (s : State) : State := { s with pace := PaceTracker.reset }

end Sys2Proof.Machine
end

