-- ==== Sys2Proof/Machine/Load.lean ====
section
/-! DEFINITION. The Load Combiner (chapter 7): rail loads, speed factor, corrected loads, axle load and their flags. -/

namespace Sys2Proof.Machine

/-- The wheel masses of the VALID estimates of a rail over the zones in use (R106). -/
def AxleRecord.railMasses (a : AxleRecord) (zones : List (Fin 4)) (r : Rail) : List Nat :=
  zones.filterMap fun z =>
    match a.estimates[channelOf z r] with
    | some e => if e.condition = .valid then e.mass else none
    | none => none

/-- The mean of the masses rounded half up (R107). -/
def meanLoad (ms : List Nat) : Nat := (2 * ms.sum + ms.length) / (2 * ms.length)

/-- The load of a rail before correction, present with at least min_zones VALID estimates (R106, R107). -/
def railLoad (minZones : Nat) (ms : List Nat) : Option Nat := if ms.length < minZones then none else some (meanLoad ms)

/-- The largest mass minus the smallest (R107). -/
def spread (ms : List Nat) : Nat := ms.foldl max 0 - ms.foldl min (ms.headD 0)

/-- The rail sets DYNAMIC (R107). -/
def railDynamic (minZones spreadLimit : Nat) (ms : List Nat) : Bool :=
  match railLoad minZones ms with
  | some mean => decide (mean * spreadLimit < spread ms * 256)
  | none => false

/-- K between a point and the next ones (R108, second and third rows). -/
def interpolate (v : Nat) : CurvePoint → List CurvePoint → Nat
  | p, [] => p.k
  | p, q :: rest =>
    if v ≤ q.v then ((p.k : Int) + roundHalfUpInt (((q.k : Int) - p.k) * ((v : Int) - p.v)) (q.v - p.v)).toNat
    else interpolate v q rest

/-- K of a Speed Curve at entry speed v (R108). -/
def curveFactor (c : Vector CurvePoint 8) (v : Nat) : Nat :=
  match c.toList with
  | p :: rest => if v ≤ p.v then p.k else interpolate v p rest
  | [] => Config.unstatedFactor v

/-- K of the working Speed Curve; free while none is held (R105). -/
def speedFactor (c : Option (Vector CurvePoint 8)) (v : Nat) : Nat :=
  match c with
  | some c => curveFactor c v
  | none => Config.unstatedFactor v

/-- L × K / 32,768 rounded half up, before the clamp (R110). -/
def correctedLoad (l k : Nat) : Nat := roundHalfUp (l * k) 32768

/-- The clamp of R110 applies. -/
def loadClamped (k : Nat) (l : Option Nat) : Bool := (l.map fun l => decide (65535 < correctedLoad l k)).getD false

/-- The corrected rail load (R110). -/
def railCorrected (k : Nat) (l : Option Nat) : Option Nat := l.map fun l => min 65535 (correctedLoad l k)

/-- The axle load, present when both rail loads are (R111). -/
def axleLoadOf (n s : Option Nat) : Option Nat :=
  match n, s with
  | some n, some s => some (n + s)
  | _, _ => none

/-- The axle sets ACCEL (R112). -/
def accelerates (accelLimit pIn pOut : Nat) : Bool := decide (pIn * accelLimit < absDiff pOut pIn * 64)

/-- The Load Combiner at step 3 of a finalization (R105). -/
def AxleRecord.combine (limits : Limits) (curve : Option (Vector CurvePoint 8)) (zones : List (Fin 4)) (pOut : Nat)
    (a : AxleRecord) : AxleRecord :=
  let nm := a.railMasses zones .north
  let sm := a.railMasses zones .south
  let ln := railLoad limits.minZones nm
  let ls := railLoad limits.minZones sm
  let k := speedFactor curve a.speed
  let n := railCorrected k ln
  let s := railCorrected k ls
  { a with
    north := n
    south := s
    axleLoad := axleLoadOf n s
    flags :=
      a.flags ||| axleFlagIf (ln.isNone || ls.isNone) .unweighed
        ||| axleFlagIf (railDynamic limits.minZones limits.spreadLimit nm
              || railDynamic limits.minZones limits.spreadLimit sm) .dynamic
        ||| axleFlagIf (decide (a.speed < limits.vMin)) .speedLow
        ||| axleFlagIf (decide (limits.vMax < a.speed)) .overspeed
        ||| axleFlagIf (loadClamped k ln || loadClamped k ls) .overrange
        ||| axleFlagIf (accelerates limits.accelLimit a.entryPace pOut) .accel }

end Sys2Proof.Machine
end

