-- ==== Sys2Proof/Machine/Train.lean ====
section
/-! DEFINITION. Train Control (chapter 4) and Axle Tracking (chapter 5): passages classified and carried out, standstills,
the end of a train and its flush. -/

namespace Sys2Proof.Machine

/-! ## Ending a train (R58 to R60, R79, R143) -/

/-- The highest ordinal held by a COMPLETE vehicle of the list, or lowest_held − 1: what an abort's flush keeps (R79). -/
def State.keptUpTo (s : State) : Nat :=
  ((s.asm.list.filter Vehicle.isComplete).getLast?.map Vehicle.last).getD (s.axles.lowestHeld - 1)

/-- Records above an ordinal removed from the tail, highest lowered to it or to lowest_held − 1, each counted in axles
discarded (R60, R79). -/
def discardAbove (ordinal : Nat) (s : State) : State :=
  let kept := s.axles.queue.filter fun a => decide (a.ordinal ≤ ordinal)
  let n := s.axles.queue.length - kept.length
  modifyCtx (fun c => { c with axlesDiscarded := c.axlesDiscarded + BitVec.ofNat 32 n })
    { s with
      axles := { s.axles with queue := kept, highest := min s.axles.highest (max ordinal (s.axles.lowestHeld - 1)) } }

/-- The flush of an aborted train (R60, R79, R143). -/
def flushAbort (s : State) : State :=
  let formed := (s.asm.list.filter fun v => !v.isComplete).length
  let s := discardAbove s.keptUpTo s
  modifyCtx (fun c => { c with vehiclesDiscarded := c.vehiclesDiscarded + BitVec.ofNat 32 formed })
    { s with asm := { s.asm with list := s.asm.list.filter Vehicle.isComplete } }

/-- The flush of a train that ended with QUIET (R60, R79, R144). DESIGN CHOICE: a vehicle still FORMED, which R144 excludes
but R72, R140 and R141 allow, stays in the list (notes/assumptions/23.md). -/
def flushQuiet (s : State) : State := considerFormation (discardAbove s.axles.lastOn s)

/-- The entry into ENDING (R59), the waiting identities resolved (R152), and the flush (R60). -/
def enterEnding (reason : EndReason) (s : State) : State :=
  let s := modifyCtx (fun c => { c with endReason := some reason, endScan := some s.rx.time }) s
  let s := { s with train := { s.train with state := .ending, quiet := none } }
  let s := resolveWaiting (emptyWindows (clearPairs s))
  if reason = .quiet then flushQuiet s else flushAbort s

/-- An abort of a RUNNING or STANDING train (R58). -/
def abortWith (reason : EndReason) (s : State) : State :=
  enterEnding reason (raiseCause .trainAborted reason.code s)

/-! ## Motion (R54, R56) -/

/-- What a standstill and a reverse passage share: the epoch advances, the lock is reset, every window is cancelled with
MOTION, the axles on the section get DISTURBED (R54, R56). -/
def motion (s : State) : State :=
  disturbSection (cancelWindows (lockReset (modifyCtx (fun c => { c with epoch := c.epoch + 1 }) s)))

/-- The motion effects of a reverse passage (R54). -/
def reverseMotion (s : State) : State := motion (modifyCtx (fun c => { c with disturbed := true }) s)

/-- A standstill (R56). -/
def standstill (s : State) : State :=
  let s := motion (modifyCtx (fun c => { c with stood := true }) s)
  startQuiet { s with train := { s.train with state := .standing } }

/-! ## Entries (R67 to R70) -/

/-- The train's motion epoch. -/
def State.epoch (s : State) : Count32 := (s.train.ctx.map TrainContext.epoch).getD 0

/-- The spacing before an ordinal entering at a time with an own pace in an epoch (R69). -/
def spacingBefore (x : AxleTracker) (ordinal : Nat) (time : T16) (pace : Nat) (epoch : Count32) : Option Nat :=
  if ordinal ≤ 1 then none
  else
    (x.find (ordinal - 1)).bind fun a =>
      if a.epoch = epoch then some (clamp 0 65535 (roundHalfUp (2000 * (t16Diff time a.entryTime).toNat) pace)) else none

/-- The own pace of an entry or exit passage; free when it carries none (R36, R12). -/
def Passage.ownPace (p : Passage) : Nat := p.pace.getD (Config.unstatedPace p.transit)

/-- The speed of an entry passage; free when it carries none (R37, R12). -/
def Passage.ownSpeed (p : Passage) : Nat := p.speed.getD (Config.unstatedSpeed p.transit)

/-- The record of a new ordinal (R66). -/
def newRecord (ordinal : Nat) (p : Passage) (epoch : Count32) (spacing : Option Nat) : AxleRecord :=
  { ordinal
    entryTime := p.secondTime
    entryPace := p.ownPace
    paceSource := .own
    speed := p.ownSpeed
    epoch
    generation := 1
    spacing
    finalized := false
    exitTime := none
    exitPace := none
    estimates := noEstimates
    north := none
    south := none
    axleLoad := none
    flags := 0
    vehicle := none }

/-- The record of a re-entering ordinal refreshed in place (R68). -/
def AxleRecord.refresh (p : Passage) (epoch : Count32) (spacing : Option Nat) (a : AxleRecord) : AxleRecord :=
  { a with
    entryTime := p.secondTime
    entryPace := p.ownPace
    speed := p.ownSpeed
    epoch
    generation := nextGeneration a.generation
    spacing
    finalized := false
    exitTime := none
    exitPace := none
    estimates := noEstimates
    north := none
    south := none
    axleLoad := none
    flags := AxleFlag.reweighed.mask }

/-- The entry's own pace taken by the Pace Tracker (R41). -/
def takePace (p : Passage) (s : State) : State := { s with pace := s.pace.take p.ownPace }

/-- The source and the PACE_UNLOCKED flag that the Pace Tracker reports, written into a record (R45, R70). -/
def AxleRecord.takeReport (t : PaceTracker) (own : Nat) (a : AxleRecord) : AxleRecord :=
  { a with
    paceSource := (t.report own).2
    flags := a.flags ||| axleFlagIf (t.lock == .none) .paceUnlocked }

/-- An entry that has written the record of an ordinal handed on: Pace Tracker, record, Zone Units (R70). -/
def handOn (ordinal : Nat) (p : Passage) (s : State) : State :=
  let s := takePace p s
  let s := modifyAxle ordinal (AxleRecord.takeReport s.pace p.ownPace) s
  match s.axles.find ordinal with
  | some a => predictWindows ordinal a.generation a.entryTime (s.pace.report p.ownPace).1 s
  | none => s

/-- The entry of a new ordinal (R67). -/
def enterNew (p : Passage) (s : State) : State :=
  let j := s.axles.highest + 1
  let a := newRecord j p s.epoch (spacingBefore s.axles j p.secondTime p.ownPace s.epoch)
  considerFormation
    (handOn j p { s with axles := { s.axles with highest := j, lastOn := j, queue := s.axles.queue ++ [a] } })

/-- The re-entry of ordinal last_on + 1 (R68). -/
def reEnter (p : Passage) (s : State) : State :=
  let j := s.axles.lastOn + 1
  let spacing := spacingBefore s.axles j p.secondTime p.ownPace s.epoch
  let epoch := s.epoch
  let s := { s with axles := { s.axles with lastOn := j } }
  considerFormation
    (match s.axles.find j with
      | some _ => handOn j p (modifyAxle j (AxleRecord.refresh p epoch spacing) s)
      | none => takePace p s)

/-- A passage classified as an entry: an entry limit met (R58, R67), a new ordinal (R67) or a re-entry (R68). -/
def carryEntry (p : Passage) (s : State) : State :=
  if s.axles.highest < s.axles.lastOn + 1 then
    if maxOrdinal ≤ s.axles.highest then abortWith .lengthLimit s
    else if axleCapacity ≤ s.axles.queue.length then abortWith .axleOverrun s
    else enterNew p (modifyCtx (fun c => { c with entries := c.entries + 1 }) s)
  else reEnter p (modifyCtx (fun c => { c with entries := c.entries + 1 }) s)

/-! ## Unexpected passages (R53) -/

/-- R53. -/
def unexpected (p : Passage) (s : State) : State :=
  raiseCause .countMismatch p.pair.code (modifyCtx (fun c => { c with unexpected := c.unexpected + 1 }) s)

/-! ## Backouts (R71, R72) -/

/-- A backout carried out, the motion effects taken before (R71, R72). -/
def backOut (s : State) : State :=
  let j := s.axles.lastOn
  let s := modifyCtx (fun c => { c with backouts := c.backouts + 1 }) s
  let s := { s with axles := { s.axles with lastOn := j - 1 } }
  let s := withdrawWindows j none (modifyAxle j (fun a => { a with estimates := noEstimates }) s)
  considerFormation (dissolveVehicle (j - 1) s)

/-! ## Exits and finalization (R73, R74, R80) -/

/-- The channels of the zones in use, in channel order (R2). -/
def Calibration.channelsInUse (c : Calibration) : List (Fin 8) :=
  c.zonesInUse.flatMap fun z => [channelOf z .north, channelOf z .south]

/-- Step 2 of R74 on a record: every estimate in use still undecided becomes TIMING. -/
def AxleRecord.settleTiming (channels : List (Fin 8)) (a : AxleRecord) : AxleRecord :=
  { a with
    estimates :=
      channels.foldl
        (fun (es : Vector (Option Estimate) 8) (ch : Fin 8) => if es[ch] = none then es.set ch (some { condition := .timing, mass := none }) else es)
        a.estimates }

/-- How many estimates in use are undecided (R100). -/
def AxleRecord.undecided (channels : List (Fin 8)) (a : AxleRecord) : Nat :=
  (channels.filter fun ch => a.estimates[ch] == none).length

/-- The axle detail of a finalized record (R80). -/
def axleDetailOf (train : Word16) (channels : List (Fin 8)) (a : AxleRecord) : AxleDetail :=
  { train
    ordinal := a.ordinal
    exitTime := a.exitTime.getD 0
    entryPace := a.entryPace
    exitPace := a.exitPace.getD 0
    paceSource := a.paceSource
    spacing := a.spacing
    estimates := channels.map fun ch => (a.estimates[ch]).getD { condition := .timing, mass := none }
    north := a.north
    south := a.south
    axleLoad := a.axleLoad
    flags := a.flags }

/-- The record after steps 1 to 5 of a finalization (R74). -/
def AxleRecord.finalize (cal : Calibration) (p : Passage) (a : AxleRecord) : AxleRecord :=
  let a := { a with exitTime := some p.secondTime, exitPace := some p.ownPace }
  let a := a.settleTiming cal.channelsInUse
  let a := a.combine cal.limits cal.curve cal.zonesInUse p.ownPace
  { a with flags := a.flags ||| axleFlagIf cal.calPending .calPending, finalized := true }

/-- The finalization of an ordinal at its exit (R74), with its occurrences of ZONE_REJECTS (R100), AXLES_WEIGHED and
AXLES_IN_BAND (R175) and its axle detail (R80). -/
def finalizeAxle (a : AxleRecord) (p : Passage) (s : State) : State :=
  let b := a.finalize s.cal p
  let s := withdrawWindows a.ordinal (some a.generation) s
  let s := countEvent .zoneRejects (a.undecided s.cal.channelsInUse) s
  let s := modifyAxle a.ordinal (fun _ => b) s
  let s := if b.axleLoad.isSome then countEvent .axlesWeighed 1 s else s
  let s := countInBand b.speed s
  if s.settings.axleDetail then
    offerDetail (axleDetailOf ((s.train.ctx.map TrainContext.number).getD 0) s.cal.channelsInUse b) s
  else s

/-- An exit carried out (R73). -/
def exitAxle (p : Passage) (s : State) : State :=
  let j := s.axles.firstOn
  let s := modifyCtx (fun c => { c with exits := c.exits + 1 }) s
  let s := { s with axles := { s.axles with firstOn := j + 1 } }
  match s.axles.find j with
  | some a => reportClearance j (if a.finalized then s else finalizeAxle a p s)
  | none => s

/-! ## Returns (R75) -/

/-- A return carried out, the motion effects taken before (R75). -/
def returnAxle (s : State) : State :=
  let j := s.axles.firstOn - 1
  let s := modifyCtx (fun c => { c with returns := c.returns + 1 }) s
  let s := { s with axles := { s.axles with firstOn := j } }
  match s.axles.find j with
  | some a =>
    let s := modifyAxle j (fun a => { a with flags := a.flags ||| AxleFlag.disturbed.mask }) s
    match a.vehicle with
    | some q => revertVehicle q s
    | none => s
  | none => modifyCtx (fun c => { c with returnedAfterRelease := c.returnedAfterRelease + 1 }) s

/-! ## Classification (R3, R52) -/

/-- The entry pair of a direction (R3). -/
def Direction.entryPair : Direction → Pair
  | .eastbound => .west
  | .westbound => .east

/-- The forward sense of a direction (R52). -/
def Direction.forward : Direction → Sense
  | .eastbound => .eastward
  | .westbound => .westward

/-- A passage classified and carried out or counted as unexpected (R52 to R54). -/
def classify (p : Passage) (s : State) : State :=
  let d := s.direction
  if p.sense = d.forward then
    if p.pair = d.entryPair then carryEntry p s
    else if s.axles.onSection then exitAxle p s
    else unexpected p s
  else
    let m := reverseMotion s
    if p.pair = d.entryPair then if s.axles.onSection then backOut m else unexpected p m
    else if 1 < s.axles.firstOn then returnAxle m
    else unexpected p m

/-! ## Passages (R50, R51, R61, R63) -/

/-- The passage is of the entry type, and the direction it starts a train in (R3, R50, R51). -/
def Passage.entryType (p : Passage) : Option Direction :=
  match p.first, p.second with
  | .w1, .w2 => some .eastbound
  | .e2, .e1 => some .westbound
  | _, _ => none

/-- The context of a starting train (R47, R51). -/
def newContext (number : Word16) (d : Direction) (time : Scan) (ignoredBefore : Count32) : TrainContext :=
  { number, direction := d, startScan := time, endScan := none, epoch := 0, stood := false, disturbed := false
    endReason := none, ignoredBefore, passagesDuringEnding := false, entries := 0, backouts := 0, exits := 0
    returns := 0, returnedAfterRelease := 0, unexpected := 0, ignored := 0, axlesDiscarded := 0
    vehiclesDiscarded := 0, detailsDropped := 0, consistUsed := 0, consistLate := 0, consistUnused := 0
    vehiclesReleased := 0, vehiclesWithGross := 0, grossTotal := 0, payloadTotal := 0 }

/-- A train start (R51, steps 1 to 7). -/
def startTrain (d : Direction) (s : State) : State :=
  let n := s.train.nextNumber
  let s : State :=
    { s with
      train :=
        { state := .running, ctx := some (newContext n d s.rx.time s.train.ignoredBetween)
          nextNumber := nextTrainNumber n, quiet := s.train.quiet, ignoredBetween := 0 }
      axles := AxleTracker.reset
      asm := { s.asm with list := [], nextSeq := 1, firstFree := 1 } }
  startQuiet (raiseCause .trainStarted n.toNat (lockReset s))

/-- A passage in IDLE (R50). -/
def passageInIdle (p : Passage) (s : State) : State :=
  match p.entryType with
  | some d =>
    if s.part = .ready then classify p (startTrain d s)
    else
      startQuiet
        (raiseCause .trainNotWeighed p.pair.code
          { s with train := { s.train with state := .ignoring, ignoredBetween := s.train.ignoredBetween + 1 } })
  | none => raiseCause .countMismatch p.pair.code s

/-- A passage in RUNNING or STANDING: RUNNING, the timer restarted, classified (R52, R55). -/
def passageInTrain (p : Passage) (s : State) : State :=
  classify p (startQuiet { s with train := { s.train with state := .running } })

/-- A passage in ENDING (R61). -/
def passageInEnding (p : Passage) (s : State) : State :=
  raiseCause .trainNotWeighed p.pair.code
    (modifyCtx (fun c => { c with ignored := c.ignored + 1, passagesDuringEnding := true }) s)

/-- A passage in IGNORING (R63). -/
def passageInIgnoring (s : State) : State :=
  startQuiet { s with train := { s.train with ignoredBetween := s.train.ignoredBetween + 1 } }

/-- A passage taken by the Train Controller in its state (R39). -/
def takePassage (p : Passage) (s : State) : State :=
  match s.train.state with
  | .idle => passageInIdle p s
  | .running | .standing => passageInTrain p s
  | .ending => passageInEnding p s
  | .ignoring => passageInIgnoring s

/-- A placed wheel event at the unit of its side, and the passage it completes (R31 to R34, R39). -/
def takeEvent (x : Detector) (t : T16) (s : State) : State :=
  let r := (s.pairUnit x.pair).take x t
  let s := setPairUnit x.pair r.unit s
  let s := if r.suspect then raiseCause .detectorSuspect x.code s else s
  match r.joined with
  | some (y, ty) => takePassage (makePassage s.cal.geometry y ty x t) s
  | none => s

/-! ## The quiet timer (R55 to R57, R63) -/

/-- The quiet timer runs and its scan has come (R55). -/
def State.quietDue (s : State) : Bool := (s.train.quiet.map fun x => atOrBefore x s.rx.time).getD false

/-- The effect of an expiry in the train state it finds (R55). -/
def quietExpiry (s : State) : State :=
  match s.train.state with
  | .running => if s.axles.onSection then standstill s else enterEnding .quiet s
  | .standing => startQuiet s
  | .ignoring => clearPairs { s with train := { s.train with state := .idle, quiet := none } }
  | .idle | .ending => s

/-- QUIET_TIMER_EXPIRY (R55): an expiry whose timer is stopped or not yet due does not take place
(notes/assumptions/1.md). -/
def execQuietTimerExpiry (s : State) : Host.Outcome State Fault Refusal :=
  .next (if s.quietDue then boundary (quietExpiry s) else s)

end Sys2Proof.Machine
end

