-- ==== Sys2Proof/Machine/Management.lean ====
section
/-! DEFINITION. The requests of the Management Unit (chapter 12, with R13, R58, R128, R145 to R148), but for the metrological
writes and the commit. Each is executed as a whole: the state it concerns, then its answer (R167). -/

namespace Sys2Proof.Machine

/-- A request whose code takes no payload, answered MALFORMED when it carries one (R167). -/
def withoutPayload (r : Request) (f : State → State) (s : State) : State :=
  if r.payload.isEmpty then f s else answer r .malformed [] s

/-! ## READ STATUS (R168, R182) -/

/-- The train number READ STATUS reports (R49). -/
def State.statusTrainNumber (s : State) : Word16 :=
  if s.busyTrain then (s.train.ctx.map TrainContext.number).getD s.train.nextNumber else s.train.nextNumber

/-- The number of windows in the list of a zone, 0 for a zone not in use (R168). -/
def State.windowCount (s : State) (z : Fin 4) : Nat :=
  if z.val < s.cal.zoneCount then s.zones[z].windows.length else 0

/-- The 30 bytes of the OK answer (R168, R182), the READ STATUS itself no longer in the buffer. -/
def statusBytes (s : State) : List Byte :=
  natBytes 1 s.part.code ++ natBytes 1 s.train.state.code ++ natBytes 2 s.statusTrainNumber.toNat ++
    [bitsByte [s.calEn, s.cal.calPending, s.cal.committing.isSome]] ++ natBytes 2 s.cal.counter ++
    [boolByte s.rx.synced] ++ natBytes 1 s.pace.lock.code ++ natBytes 2 s.axles.firstOn ++
    natBytes 2 s.axles.lastOn ++ natBytes 2 s.axles.highest ++ natBytes 2 s.axles.lowestHeld ++
    natBytes 1 s.axles.queue.length ++ natBytes 1 (s.windowCount 0) ++ natBytes 1 (s.windowCount 1) ++
    natBytes 1 (s.windowCount 2) ++ natBytes 1 (s.windowCount 3) ++ natBytes 1 s.asm.list.length ++
    natBytes 2 s.consist.length ++ natBytes 1 (waitingCount s.asm.list) ++ natBytes 1 s.link.records.length ++
    natBytes 1 s.link.details.length ++
    natBytes 1 (s.link.responses.length + 128 * s.cal.committing.isSome.toNat) ++ natBytes 1 s.requests.length

/-- READ STATUS executed. -/
def readStatus (r : Request) (s : State) : State := withoutPayload r (fun s => answer r .ok (statusBytes s) s) s

/-- READ_STATUS. -/
def execReadStatus (s : State) : Host.Outcome State Fault Refusal :=
  .next (onHead (fun c => c == codeReadStatus) readStatus s)

/-! ## READ TABLE (R169, R182) -/

/-- The fields of a named table and index: none for BAD_INDEX, some none for an absent or empty entry. -/
def State.tableFields (s : State) (table index : Nat) : Option (Option (List Byte)) :=
  match table with
  | 1 => some (s.cal.geometry.map geometryBytes)
  | 2 => if h : index < 8 then some (s.cal.channels[index].map channelBytes) else none
  | 3 => some (s.cal.curve.map curveBytes)
  | 4 => some (some (limitsBytes s.cal.limits ++ natBytes 1 s.cal.origin.code))
  | 5 => some (some (settingsBytes s.settings))
  | 6 => if h : index < 32 then some (s.asm.types[index].map typeBytes) else none
  | 7 => if 1 ≤ index ∧ index ≤ consistCapacity then some ((entryAt s.consist index).map consistBytes) else none
  | 8 => if h : 1 ≤ index ∧ index ≤ 16 then some (some (natBytes 1 (s.notices.levels[index - 1]'(by omega)))) else none
  | _ => none

/-- READ TABLE executed. -/
def readTable (r : Request) (s : State) : State :=
  if r.payload.length ≠ 3 then answer r .malformed [] s
  else
    match s.tableFields (natAt r.payload 0 1) (natAt r.payload 1 2) with
    | none => answer r .badIndex [] s
    | some none => answer r .ok (r.payload ++ [0]) s
    | some (some bytes) => answer r .ok (r.payload ++ 1 :: bytes) s

/-- READ_TABLE. -/
def execReadTable (s : State) : Host.Outcome State Fault Refusal :=
  .next (onHead (fun c => c == codeReadTable) readTable s)

/-! ## Notices and levels (R171, R163) -/

/-- One kind of the READ NOTICES answer (R182); the value of the pending byte is notes/assumptions/26.md. -/
def noticeStatusBytes (u : NoticeUnit) (k : NoticeKind) : List Byte :=
  natBytes 1 (u.level k) ++ [boolByte (u.entry k).pending] ++ natBytes 1 (u.entry k).count ++
    natBytes 2 (u.entry k).lastArg.toNat

/-- READ NOTICES executed. -/
def readNotices (r : Request) (s : State) : State :=
  withoutPayload r (fun s => answer r .ok (allKinds.flatMap (noticeStatusBytes s.notices)) s) s

/-- READ_NOTICES. -/
def execReadNotices (s : State) : Host.Outcome State Fault Refusal :=
  .next (onHead (fun c => c == codeReadNotices) readNotices s)

/-- Every pending mark cleared and every count 0, the last arguments and levels kept (R171). -/
def NoticeUnit.cleared (u : NoticeUnit) : NoticeUnit :=
  { u with register := u.register.map fun e => { e with pending := false, count := 0 } }

/-- CLEAR NOTICES executed. -/
def clearNotices (r : Request) (s : State) : State :=
  withoutPayload r (fun s => answer r .ok [] { s with notices := s.notices.cleared }) s

/-- CLEAR_NOTICES. -/
def execClearNotices (s : State) : Host.Outcome State Fault Refusal :=
  .next (onHead (fun c => c == codeClearNotices) clearNotices s)

/-- The level of a kind written; level 0 clears its mark (R163). -/
def NoticeUnit.writeLevel (u : NoticeUnit) (i : Fin 16) (level : Nat) : NoticeUnit :=
  { levels := u.levels.set i level
    register :=
      u.register.set i { u.register[i] with pending := if level = 0 then false else u.register[i].pending } }

/-- WRITE LEVEL executed (R171). -/
def writeLevel (r : Request) (s : State) : State :=
  let k := natAt r.payload 0 1
  let level := natAt r.payload 1 1
  if r.payload.length ≠ 2 then answer r .malformed [] s
  else if h : 1 ≤ k ∧ k ≤ 16 then
    if 7 < level then answerBadValue r 1 s
    else answer r .ok [] { s with notices := s.notices.writeLevel ⟨k - 1, by omega⟩ level }
  else answer r .badIndex [] s

/-- WRITE_LEVEL. -/
def execWriteLevel (s : State) : Host.Outcome State Fault Refusal :=
  .next (onHead (fun c => c == codeWriteLevel) writeLevel s)

/-! ## Operating Settings and Type Table (R170, R128) -/

/-- WRITE SETTINGS executed. -/
def writeSettings (r : Request) (s : State) : State :=
  if r.payload.length ≠ 7 then answer r .malformed [] s
  else
    match settingsFault r.payload with
    | some n => answerBadValue r n s
    | none => answer r .ok [] { s with settings := parseSettings r.payload }

/-- WRITE_SETTINGS. -/
def execWriteSettings (s : State) : Host.Outcome State Fault Refusal :=
  .next (onHead (fun c => c == codeWriteSettings) writeSettings s)

/-- An entry of the Type Table replaced. -/
def setType (i : Fin 32) (t : Option VehicleType) (s : State) : State :=
  { s with asm := { s.asm with types := s.asm.types.set i t } }

/-- WRITE TYPE executed (R128). -/
def writeType (r : Request) (s : State) : State :=
  if s.busyTrain then answer r .busyTrain [] s
  else if r.payload.isEmpty then answer r .malformed [] s
  else if h : natAt r.payload 0 1 < 32 then
    if r.payload.length = 1 then answer r .ok [] (setType ⟨natAt r.payload 0 1, h⟩ none s)
    else if typeShape r.payload = false then answer r .malformed [] s
    else
      match typeFault s.asm.types.toList r.payload with
      | some n => answerBadValue r n s
      | none => answer r .ok [] (setType ⟨natAt r.payload 0 1, h⟩ (some (parseType r.payload)) s)
  else answer r .badIndex [] s

/-- WRITE_TYPE. -/
def execWriteType (s : State) : Host.Outcome State Fault Refusal :=
  .next (onHead (fun c => c == codeWriteType) writeType s)

/-! ## Consist List (R146 to R148) -/

/-- What an append at a position finds of the vehicle of that sequence (R147). -/
inductive AppendCase where
  | notResolved
  | waiting
  | resolvedAbsent
  deriving DecidableEq, Repr

/-- The case of R147 at position p: a vehicle no longer in the list was released, and was ABSENT, when p is at most the
vehicles released (notes/assumptions/25.md). -/
def State.appendCase (s : State) (p : Nat) : AppendCase :=
  match s.asm.find p with
  | some v =>
    match v.resolution with
    | .waiting _ => .waiting
    | .absent => .resolvedAbsent
    | .unresolved | .present _ => .notResolved
  | none =>
    if p ≤ ((s.train.ctx.map fun c => c.vehiclesReleased.toNat).getD 0) then .resolvedAbsent else .notResolved

/-- An accepted append at position p (R146, step 5; R147). -/
def appendEntry (r : Request) (e : ConsistEntry) (s : State) : State :=
  let p := s.consist.length + 1
  let stored : State := { s with consist := s.consist ++ [e] }
  if s.train.state = .running ∨ s.train.state = .standing then
    match s.appendCase p with
    | .notResolved => answer r .ok (natBytes 2 p) stored
    | .waiting => answer r .ok (natBytes 2 p) (modifyVehicle p (Vehicle.resolvePresent e) stored)
    | .resolvedAbsent =>
      answer r .late (natBytes 2 p) (modifyCtx (fun c => { c with consistLate := c.consistLate + 1 }) stored)
  else answer r .ok (natBytes 2 p) stored

/-- APPEND CONSIST executed, in the order of R146. -/
def appendConsist (r : Request) (s : State) : State :=
  if s.train.state = .ending then answer r .busyTrain [] s
  else if inRange 3 15 r.payload.length = false then answer r .malformed [] s
  else
    match consistFault r.payload with
    | some n => answerBadValue r n s
    | none =>
      if consistCapacity ≤ s.consist.length then answer r .full [] s
      else appendEntry r (parseConsist r.payload) s

/-- APPEND_CONSIST. -/
def execAppendConsist (s : State) : Host.Outcome State Fault Refusal :=
  .next (onHead (fun c => c == codeAppendConsist) appendConsist s)

/-- CLEAR CONSIST executed (R148). -/
def clearConsist (r : Request) (s : State) : State :=
  withoutPayload r
    (fun s => if s.busyTrain then answer r .busyTrain [] s else answer r .ok [] { s with consist := [] }) s

/-- CLEAR_CONSIST. -/
def execClearConsist (s : State) : Host.Outcome State Fault Refusal :=
  .next (onHead (fun c => c == codeClearConsist) clearConsist s)

/-! ## Counters (R174, R177) -/

/-- A counter zeroed, its selection kept (R177). -/
def Counter.zeroed (c : Counter) : Counter := { c with value := 0, overflow := false, previous := false }

/-- WRITE COUNTER executed (R174). -/
def writeCounter (r : Request) (s : State) : State :=
  if r.payload.length ≠ 9 then answer r .malformed [] s
  else if h : natAt r.payload 0 1 < 4 then
    match selectionFault r.payload with
    | some n => answerBadValue r n s
    | none =>
      answer r .ok []
        { s with
          counters :=
            s.counters.set (natAt r.payload 0 1) { Counter.reset with selection := parseSelection r.payload } h }
  else answer r .badIndex [] s

/-- WRITE_COUNTER. -/
def execWriteCounter (s : State) : Host.Outcome State Fault Refusal :=
  .next (onHead (fun c => c == codeWriteCounter) writeCounter s)

/-- One counter of the READ COUNTERS answer (R182); the value of the overflow byte is notes/assumptions/26.md. -/
def counterBytes (c : Counter) : List Byte :=
  natBytes 4 c.value ++ [boolByte c.overflow] ++ selectionBytes c.selection

/-- READ COUNTERS executed. -/
def readCounters (r : Request) (s : State) : State :=
  withoutPayload r (fun s => answer r .ok (s.counters.toList.flatMap counterBytes) s) s

/-- READ_COUNTERS. -/
def execReadCounters (s : State) : Host.Outcome State Fault Refusal :=
  .next (onHead (fun c => c == codeReadCounters) readCounters s)

/-- Every counter zeroed (R177). -/
def zeroCounters (s : State) : State :=
  { s with
    counters := #v[s.counters[0].zeroed, s.counters[1].zeroed, s.counters[2].zeroed, s.counters[3].zeroed] }

/-- RESET COUNTERS executed. -/
def resetCounters (r : Request) (s : State) : State :=
  withoutPayload r (fun s => answer r .ok [] (zeroCounters s)) s

/-- RESET_COUNTERS. -/
def execResetCounters (s : State) : Host.Outcome State Fault Refusal :=
  .next (onHead (fun c => c == codeResetCounters) resetCounters s)

/-! ## ABORT TRAIN, RESTART, unknown codes (R58, R172, R167) -/

/-- ABORT TRAIN executed (R58). -/
def abortTrain (r : Request) (s : State) : State :=
  withoutPayload r
    (fun s =>
      if s.train.state = .running ∨ s.train.state = .standing then answer r .ok [] (abortWith .request s)
      else answer r .noTrain [] s)
    s

/-- ABORT_TRAIN. -/
def execAbortTrain (s : State) : Host.Outcome State Fault Refusal :=
  .next (onHead (fun c => c == codeAbortTrain) abortTrain s)

/-- What RESTART does to every block (R172), its own response apart. -/
def restartBlocks (s : State) : State :=
  zeroCounters
    (reloadZones
      { s with
        train := { TrainControl.reset with nextNumber := s.train.nextNumber }
        axles := AxleTracker.reset
        west := PairUnit.reset
        east := PairUnit.reset
        pace := PaceTracker.reset
        asm := { s.asm with list := [], nextSeq := 1, firstFree := 1 }
        consist := []
        link := { s.link with records := [], details := [], responses := [] }
        notices := { s.notices with register := Vector.replicate 16 NoticeEntry.reset }
        requests := [] })

/-- RESTART executed (R172). -/
def restart (r : Request) (s : State) : State :=
  if s.cal.committing.isSome then answer r .busyCommit [] s
  else if r.payload.isEmpty then answer r .ok [] (restartBlocks s)
  else answer r .malformed [] s

/-- RESTART. -/
def execRestart (s : State) : Host.Outcome State Fault Refusal :=
  .next (onHead (fun c => c == codeRestart) restart s)

/-- A request of an unknown code executed (R167). -/
def unknownRequest (r : Request) (s : State) : State := answer r .malformed [] s

/-- UNKNOWN_REQUEST. -/
def execUnknownRequest (s : State) : Host.Outcome State Fault Refusal :=
  .next (onHead (fun c => !knownCodes.contains c) unknownRequest s)

/-! ## The head request, whatever its code -/

/-- The execution of a request by its code, as a place freed in the Response Queue brings it (R160, R167). `wordTaken` is
the store's answer should the request be a commit. -/
def perform (wordTaken : Bool) (r : Request) (s : State) : State :=
  if r.code = codeReadStatus then readStatus r s
  else if r.code = codeReadTable then readTable r s
  else if r.code = codeReadNotices then readNotices r s
  else if r.code = codeClearNotices then clearNotices r s
  else if r.code = codeWriteGeometry then writeGeometry r s
  else if r.code = codeWriteChannel then writeChannel r s
  else if r.code = codeWriteSpeedCurve then writeSpeedCurve r s
  else if r.code = codeWriteLimits then writeLimits r s
  else if r.code = codeCommitCalibration then commitCalibration wordTaken r s
  else if r.code = codeWriteSettings then writeSettings r s
  else if r.code = codeWriteType then writeType r s
  else if r.code = codeAppendConsist then appendConsist r s
  else if r.code = codeClearConsist then clearConsist r s
  else if r.code = codeWriteLevel then writeLevel r s
  else if r.code = codeWriteCounter then writeCounter r s
  else if r.code = codeReadCounters then readCounters r s
  else if r.code = codeResetCounters then resetCounters r s
  else if r.code = codeAbortTrain then abortTrain r s
  else if r.code = codeRestart then restart r s
  else unknownRequest r s

end Sys2Proof.Machine
end

