-- ==== Sys2Proof/Machine/RecordLink.lean ====
section
/-! DEFINITION. Release, the summary, the expiry of identity waits, RL_HOLD and the ends of frames (chapters 10 and 11, R62). -/

namespace Sys2Proof.Machine

/-! ## Release (R153, R154, R142, R78) -/

/-- The head vehicle with its totals, when it can be released (R153). -/
def State.releasable (s : State) : Option (Vehicle × VehicleTotals) :=
  match s.asm.list with
  | [] => none
  | v :: _ =>
    match v.state with
    | .complete t => if v.isResolved && decide (s.link.records.length < recordCapacity) then some (v, t) else none
    | .formed => none

/-- An axle as the vehicle record carries it (R142). -/
def AxleRecord.entry (a : AxleRecord) : AxleEntry :=
  { ordinal := a.ordinal, axleLoad := a.axleLoad, north := a.north, south := a.south, speed := a.speed
    flags := a.flags }

/-- The identity of a PRESENT vehicle (R154). -/
def Vehicle.identity (v : Vehicle) : Option (List Byte) :=
  match v.resolution with
  | .present x => some x
  | _ => none

/-- The vehicle record placed at a release (R142, R154). -/
def vehicleRecord (train : Word16) (axles : AxleTracker) (v : Vehicle) (t : VehicleTotals) : VehicleRecord :=
  { train
    sequence := v.sequence
    typeCode := v.typeCode
    kind := v.kind
    count := v.count
    first := v.first
    gross := t.gross
    net := t.net
    nTotal := t.nTotal
    sTotal := t.sTotal
    speed := t.speed
    flags := t.flags ||| v.idFlags
    identity := v.identity
    axles := (axles.recordsOf v).filterMap fun a => a.map AxleRecord.entry }

/-- The counts of the context at a release (R48, R154). -/
def TrainContext.countRelease (v : Vehicle) (t : VehicleTotals) (c : TrainContext) : TrainContext :=
  { c with
    vehiclesReleased := c.vehiclesReleased + 1
    consistUsed := if v.identity.isSome then c.consistUsed + 1 else c.consistUsed
    vehiclesWithGross := if t.gross.isSome then c.vehiclesWithGross + 1 else c.vehiclesWithGross
    grossTotal := c.grossTotal + BitVec.ofNat 32 (t.gross.getD 0)
    payloadTotal := if v.kind = .wagon then c.payloadTotal + BitVec.ofNat 32 (t.net.getD 0) else c.payloadTotal }

/-- The axle records of a released vehicle leave the head of the Axle Queue (R78). -/
def AxleTracker.release (last : Nat) (x : AxleTracker) : AxleTracker :=
  { x with queue := x.queue.filter fun a => decide (last < a.ordinal), lowestHeld := last + 1 }

/-- The head vehicle leaves the Assembly List (R142). -/
def dropHead (s : State) : State := { s with asm := { s.asm with list := s.asm.list.tail } }

/-- A release as one step (R154), with the consideration that the freed place brings (R142). -/
def releaseVehicle (v : Vehicle) (t : VehicleTotals) (s : State) : State :=
  let rec' := vehicleRecord ((s.train.ctx.map TrainContext.number).getD 0) s.axles v t
  let s := placeRecord (.vehicle rec') s
  let s := dropHead { s with axles := s.axles.release v.last }
  let s := countEvent .vehiclesReleased 1 (modifyCtx (TrainContext.countRelease v t) s)
  let s := if v.unmatched then countEvent .unmatchedVehicles 1 s else s
  considerFormation s

/-- VEHICLE_RELEASE (R154): one release; with no vehicle to release it does not take place (notes/assumptions/1.md,
3.md). -/
def execVehicleRelease (s : State) : Host.Outcome State Fault Refusal :=
  .next
    (match s.releasable with
      | some (v, t) => boundary (releaseVehicle v t s)
      | none => s)

/-! ## The summary (R62) -/

/-- The context of an ENDING train whose summary can be placed (R62). -/
def State.summaryDue (s : State) : Option TrainContext :=
  if s.train.state = .ending ∧ s.asm.list = [] ∧ s.link.records.length < recordCapacity then s.train.ctx else none

/-- The end reason is an abort reason (R58, R62). -/
def TrainContext.aborted (c : TrainContext) : Bool := c.endReason.isSome && c.endReason != some .quiet

/-- consist unused: the entries whose position exceeds the number of vehicles released (R48, R148). -/
def consistUnused (list : List ConsistEntry) (c : TrainContext) : Nat := list.length - c.vehiclesReleased.toNat

/-- The summary placed, the Consist List cleared, the pair units cleared, the context disposed of, and the state IGNORING
or IDLE (R62, R148). -/
def placeSummary (c : TrainContext) (s : State) : State :=
  let c' := { c with consistUnused := BitVec.ofNat 32 (consistUnused s.consist c) }
  let s := placeRecord (.summary { ctx := c', counter := s.cal.counter, calPending := s.cal.calPending }) s
  let s := clearPairs { s with consist := [] }
  if c.aborted || c.passagesDuringEnding then
    startQuiet { s with train := { s.train with ctx := none, state := .ignoring } }
  else { s with train := { s.train with ctx := none, state := .idle, quiet := none } }

/-- SUMMARY_PLACED (R62): with no summary due it does not take place (notes/assumptions/1.md). -/
def execSummaryPlaced (s : State) : Host.Outcome State Fault Refusal :=
  .next
    (match s.summaryDue with
      | some c => boundary (placeSummary c s)
      | none => s)

/-! ## Identity waits (R150) -/

/-- The wait of a vehicle has run out at a scan time (R150). -/
def Vehicle.waitOver (time : Scan) (v : Vehicle) : Bool :=
  match v.resolution with
  | .waiting expiry => atOrBefore expiry time
  | _ => false

/-- ID_WAIT_EXPIRY (R150) of the vehicle of a sequence: a wait that is not held or not over does not expire
(notes/assumptions/1.md). -/
def execIdWaitExpiry (sequence : Nat) (s : State) : Host.Outcome State Fault Refusal :=
  .next
    (if ((s.asm.find sequence).map (Vehicle.waitOver s.rx.time)).getD false then
      boundary (modifyVehicle sequence (Vehicle.resolveAbsent .idTimeout) s)
    else s)

/-! ## Frame boundaries (R158 to R160) -/

/-- A place freed by a chosen item handed to its waiting producer (R160): one freed place, one act
(notes/assumptions/3.md). -/
def handFreedPlace (wordTaken : Bool) (c : Choice) (s : State) : State :=
  match c with
  | .record _ =>
    match s.releasable with
    | some (v, t) => releaseVehicle v t s
    | none =>
      match s.summaryDue with
      | some c => placeSummary c s
      | none => s
  | .response _ =>
    match s.headRequest with
    | some (r, s') => perform wordTaken r s'
    | none => s
  | .notice _ | .detail _ => s

/-- The boundary of a frame's end or a hold's release: the arbiter's choice starts, and the place it frees is handed on
(R159, R160). -/
def handingBoundary (wordTaken : Bool) (s : State) : State :=
  match s.chosen with
  | some c => handFreedPlace wordTaken c (startChosen c s)
  | none => s

/-- RL_HOLD_ASSERT (R158). -/
def execRlHoldAssert (s : State) : Host.Outcome State Fault Refusal := .next { s with hold := true }

/-- RL_HOLD_RELEASE (R158): a boundary if the transmitter is IDLE. -/
def execRlHoldRelease (wordTaken : Bool) (s : State) : Host.Outcome State Fault Refusal :=
  .next (if s.hold then handingBoundary wordTaken { s with hold := false } else s)

/-- The transmitter IDLE after the end of its frame. -/
def endFrame (s : State) : State := { s with link := { s.link with sending := none } }

/-- FRAME_END (R159): with no frame going out it does not take place (notes/assumptions/1.md). -/
def execFrameEnd (wordTaken : Bool) (s : State) : Host.Outcome State Fault Refusal :=
  .next (if s.link.sending.isSome then handingBoundary wordTaken (endFrame s) else s)

end Sys2Proof.Machine
end

