-- ==== Sys2Proof/Machine/TrackLink.lean ====
section
/-! DEFINITION. The Track Link Receiver (chapter 2): examination of frames, scan time, placing of wheel events, loss of sync,
and the hunt for frames in a stream of bytes. -/

namespace Sys2Proof.Machine

/-! ## Examination (R14, R15) -/

/-- What an accepted frame carries (R17, R180). -/
inductive Inbound where
  | scan (number : Word16) (samples : List Sample)
  | wheel (detector : Detector) (number : Word16) (fraction : Nat)
  | request (r : Request)
  deriving DecidableEq, Repr

/-- The outcome of the examination of R15: accepted, or rejected with a reason. -/
inductive Examined where
  | accepted (f : Inbound)
  | rejected (reason : Nat)
  deriving DecidableEq, Repr

/-- Steps 3 to 5 of R15 for a SCAN. -/
def examineScan (geometry : Option GeometryRecord) (p : List Byte) : Examined :=
  match scanEntries p with
  | none => .rejected reasonLength
  | some k =>
    if (geometry.map fun g => k != 2 * g.zones.length).getD false then .rejected reasonChannels
    else
      match samplesOf (rawSamples (p.drop 2)) with
      | some xs => .accepted (.scan (BitVec.ofNat 16 (natAt p 0 2)) xs)
      | none => .rejected reasonField

/-- Steps 3 and 5 of R15 for a WHEEL. -/
def examineWheel (p : List Byte) : Examined :=
  if p.length ≠ 4 then .rejected reasonLength
  else
    match Detector.ofCode (natAt p 0 1) with
    | some x =>
      if natAt p 3 1 ≤ 15 then .accepted (.wheel x (BitVec.ofNat 16 (natAt p 1 2)) (natAt p 3 1))
      else .rejected reasonField
    | none => .rejected reasonField

/-- Step 3 of R15 for a REQUEST. -/
def examineRequest (p : List Byte) : Examined :=
  if p.length < 2 then .rejected reasonLength
  else .accepted (.request { tag := byteAt p 0, code := byteAt p 1, payload := p.drop 2 })

/-- A complete frame examined in the order of R15. A declared length above the largest inbound payload is rejected before
the check (R14; notes/assumptions/17.md). -/
def examine (geometry : Option GeometryRecord) (kind : Byte) (p : List Byte) (check : Word16) : Examined :=
  if maxInboundPayload < p.length then .rejected reasonLength
  else if checkPasses (checkedBytes kind p) check = false then .rejected reasonCheck
  else if kind = kindScan then examineScan geometry p
  else if kind = kindWheel then examineWheel p
  else if kind = kindRequest then examineRequest p
  else .rejected reasonKind

/-- A rejected frame, or a discarded scan: the cause, and one occurrence of FRAMES_REJECTED (R15, R21). -/
def rejectFrame (reason : Nat) (s : State) : State :=
  countEvent .framesRejected 1 (raiseCause .frameRejected reason s)

/-! ## Loss of sync (R24) -/

/-- The Train Controller's part of a loss of sync: a RUNNING or STANDING train is aborted with TIME_BASE (R24, R58). -/
def abortOnLoss (s : State) : State :=
  if s.train.state = .running ∨ s.train.state = .standing then abortWith .timeBase s else s

/-- A loss of sync (R24), in the order receiver, pair units, Zone Units, Train Controller (notes/assumptions/11.md).
DEDUCED: the channels of R24 are the 2Z channels that a section of Z zones has (R1, R2), and a channel not in use keeps its
state as it stood when it left use (R2; notes/assumptions/22.md). -/
def loseSync (s : State) : State :=
  abortOnLoss
    (mapZones (fun z u => if z.val < s.cal.zoneCount then u.loseSync (s.cal.zoneTables z) else u.empty)
      { s with rx := { s.rx with synced := false, silence := false }, west := PairUnit.reset, east := PairUnit.reset })

/-! ## Accepted scans (R19 to R22, R25, R26) -/

/-- A CHANNEL_FAULT cause for each sample of status OVERRANGE or OPEN, in channel order from channel `ch` (R26). -/
def sampleFaults : Nat → List Sample → State → State
  | _, [], s => s
  | ch, x :: rest, s => sampleFaults (ch + 1) rest (if x.status = .ok then s else raiseCause .channelFault ch s)

/-- What an accepted scan hands over once T stands at its new value: the Statistics Unit samples, and while a Geometry
Record is held the samples go to the channels and the Zone Units (R25, R26). -/
def handOver (missing : Option (Scan × Scan)) (samples : List Sample) (s : State) : State :=
  let s := sampleOccupancy s
  if s.cal.geometry.isSome then scanZones s.rx.time missing samples (sampleFaults 0 samples s) else s

/-- The receiver after an accepted scan at a time (R19, R20): the silence timer is started or restarted. -/
def Receiver.advance (time : Scan) (number : Word16) (r : Receiver) : Receiver :=
  { r with time, lastScan := number, silence := true }

/-- The receiver synchronized by a scan (R19). -/
def Receiver.synchronize (number : Word16) (r : Receiver) : Receiver :=
  { time := r.time + 1, lastScan := number, synced := true, syncScan := r.time + 1, silence := true }

/-- A SCAN frame that synchronizes the receiver (R19). -/
def synchronizeScan (number : Word16) (samples : List Sample) (s : State) : State :=
  handOver none samples { s with rx := s.rx.synchronize number }

/-- d, from the last scan number to the new one (R20). -/
def scanStep (last number : Word16) : Nat := (number - last).toNat

/-- A next scan (R20). -/
def nextScan (number : Word16) (samples : List Sample) (s : State) : State :=
  handOver none samples { s with rx := s.rx.advance (s.rx.time + 1) number }

/-- A gap of d scans (R20): T − d + 1 to T − 1 of the new T are missing. -/
def gapScan (d : Nat) (number : Word16) (samples : List Sample) (s : State) : State :=
  let t := s.rx.time
  let s := countEvent .scansLost (d - 1) (raiseCause .scanGap (d - 1) s)
  handOver (some (t + 1, t + BitVec.ofNat 32 d - 1)) samples
    { s with rx := s.rx.advance (t + BitVec.ofNat 32 d) number }

/-- A jump (R22). -/
def jumpScan (number : Word16) (samples : List Sample) (s : State) : State :=
  synchronizeScan number samples (raiseCause .trackSyncLost lostByJump (loseSync s))

/-- An accepted SCAN frame (R19, R20). -/
def takeScan (number : Word16) (samples : List Sample) (s : State) : State :=
  if s.rx.synced then
    let d := scanStep s.rx.lastScan number
    if d = 0 then rejectFrame reasonDuplicate s
    else if d = 1 then nextScan number samples s
    else if d ≤ 256 then gapScan d number samples s
    else if d ≤ 32767 then jumpScan number samples s
    else rejectFrame reasonStale s
  else synchronizeScan number samples s

/-! ## Wheel events (R27 to R29) -/

/-- The event time of a wheel frame, or none where it is discarded (R27, R28). T − sync scan is the number of scans since
the last synchronization, taken modulo 2^32 (notes/assumptions/24.md). -/
def Receiver.placeEvent (number : Word16) (r : Receiver) : Option Scan :=
  let back := (r.lastScan - number).toNat
  if r.synced = false then none
  else if back ≤ 64 then
    if back ≤ (r.time - r.syncScan).toNat then some (r.time - BitVec.ofNat 32 back) else none
  else if 65532 ≤ back then some (r.time + BitVec.ofNat 32 (65536 - back))
  else none

/-- An accepted WHEEL frame (R27 to R29). -/
def takeWheel (x : Detector) (number : Word16) (fraction : Nat) (s : State) : State :=
  match s.rx.placeEvent number with
  | some t => takeEvent x (t16OfScan t fraction) s
  | none => raiseCause .eventDiscarded x.code s

/-! ## Requests (R166) -/

/-- An accepted REQUEST frame (R17, R166). -/
def takeRequest (r : Request) (s : State) : State :=
  if s.requests.length < requestCapacity then { s with requests := s.requests ++ [r] }
  else raiseCause .mgmtOverrun r.tag.toNat s

/-! ## Frames -/

/-- An accepted frame routed (R17). -/
def routeFrame (f : Inbound) (s : State) : State :=
  match f with
  | .scan number samples => takeScan number samples s
  | .wheel x number fraction => takeWheel x number fraction s
  | .request r => takeRequest r s

/-- A complete frame received: nothing in STARTING (R16), else examined (R15) and routed (R17). -/
def receiveFrame (kind : Byte) (p : List Byte) (check : Word16) (s : State) : State :=
  if s.part = .starting then s
  else
    match examine s.cal.geometry kind p check with
    | .accepted f => boundary (routeFrame f s)
    | .rejected reason => boundary (rejectFrame reason s)

/-- SCAN_FRAME (R20). -/
def execScanFrame (p : List Byte) (check : Word16) (s : State) : Host.Outcome State Fault Refusal :=
  .next (receiveFrame kindScan p check s)

/-- WHEEL_FRAME (R28). -/
def execWheelFrame (p : List Byte) (check : Word16) (s : State) : Host.Outcome State Fault Refusal :=
  .next (receiveFrame kindWheel p check s)

/-- REQUEST_FRAME (R166). -/
def execRequestFrame (p : List Byte) (check : Word16) (s : State) : Host.Outcome State Fault Refusal :=
  .next (receiveFrame kindRequest p check s)

/-- UNDEFINED_KIND_FRAME (R15). -/
def execUndefinedKindFrame (kind : Byte) (p : List Byte) (check : Word16) (s : State) :
    Host.Outcome State Fault Refusal :=
  .next (receiveFrame kind p check s)

/-- FRAME_BYTE_TIMEOUT (R14). -/
def execFrameByteTimeout (s : State) : Host.Outcome State Fault Refusal :=
  .next (if s.part = .starting then s else boundary (rejectFrame reasonLength s))

/-- OVERSIZED_PAYLOAD_LENGTH (R14); a length that fits rejects nothing (notes/assumptions/17.md). -/
def execOversizedPayloadLength (length : Word16) (s : State) : Host.Outcome State Fault Refusal :=
  .next
    (if s.part = .starting ∨ length.toNat ≤ maxInboundPayload then s else boundary (rejectFrame reasonLength s))

/-- SILENCE_TIMEOUT (R23): an expiry while the timer is stopped does not take place (notes/assumptions/1.md). -/
def execSilenceTimeout (s : State) : Host.Outcome State Fault Refusal :=
  .next (if s.rx.silence then boundary (raiseCause .trackSyncLost lostBySilence (loseSync s)) else s)

/-! ## The hunt for frames (R14) -/

/-- The command that a complete frame of a kind makes. -/
def frameCommand (kind : Byte) (p : List Byte) (check : Word16) : Instr :=
  if kind = kindScan then .scanFrame p check
  else if kind = kindWheel then .wheelFrame p check
  else if kind = kindRequest then .requestFrame p check
  else .undefinedKindFrame kind p check

/-- The commands that a stream of bytes makes, in order, and the bytes of the frame still in progress at its end (R14).
`fuel` bounds the bytes read. The partial frame is no part of State (notes/assumptions/4.md). -/
def deframeWith : Nat → List Byte → List Instr × List Byte
  | 0, bytes => ([], bytes)
  | _ + 1, [] => ([], [])
  | fuel + 1, b :: rest =>
    if b = startDelimiter then
      match rest with
      | kind :: hi :: lo :: body =>
        let n := be [hi, lo]
        if maxInboundPayload < n then
          let r := deframeWith fuel rest
          (.oversizedPayloadLength (BitVec.ofNat 16 n) :: r.1, r.2)
        else if body.length < n + 2 then ([], b :: rest)
        else
          let r := deframeWith fuel (body.drop (n + 2))
          (frameCommand kind (body.take n) (BitVec.ofNat 16 (natAt body n 2)) :: r.1, r.2)
      | _ => ([], b :: rest)
    else deframeWith fuel rest

/-- The hunt over a whole stream (R14). -/
def deframe (bytes : List Byte) : List Instr × List Byte := deframeWith bytes.length bytes

end Sys2Proof.Machine
end

