-- ==== Sys2Proof/Machine/Dispatch.lean ====
section
/-! DEFINITION. The meaning of each command: one arm a constructor of Instr. -/

namespace Sys2Proof.Machine

def exec (i : Instr) (s : State) : Host.Outcome State Fault Refusal :=
  match i with
  | .powerOnReset => Sys2Proof.Machine.execPowerOnReset s
  | .startUpLoad readable => Sys2Proof.Machine.execStartUpLoad readable s
  | .frameByteTimeout => Sys2Proof.Machine.execFrameByteTimeout s
  | .scanFrame payload check => Sys2Proof.Machine.execScanFrame payload check s
  | .wheelFrame payload check => Sys2Proof.Machine.execWheelFrame payload check s
  | .requestFrame payload check => Sys2Proof.Machine.execRequestFrame payload check s
  | .silenceTimeout => Sys2Proof.Machine.execSilenceTimeout s
  | .quietTimerExpiry => Sys2Proof.Machine.execQuietTimerExpiry s
  | .idWaitExpiry sequence => Sys2Proof.Machine.execIdWaitExpiry sequence s
  | .vehicleRelease => Sys2Proof.Machine.execVehicleRelease s
  | .summaryPlaced => Sys2Proof.Machine.execSummaryPlaced s
  | .readStatus => Sys2Proof.Machine.execReadStatus s
  | .readTable => Sys2Proof.Machine.execReadTable s
  | .readNotices => Sys2Proof.Machine.execReadNotices s
  | .clearNotices => Sys2Proof.Machine.execClearNotices s
  | .writeGeometry => Sys2Proof.Machine.execWriteGeometry s
  | .writeChannel => Sys2Proof.Machine.execWriteChannel s
  | .writeSpeedCurve => Sys2Proof.Machine.execWriteSpeedCurve s
  | .writeLimits => Sys2Proof.Machine.execWriteLimits s
  | .commitCalibration wordTaken => Sys2Proof.Machine.execCommitCalibration wordTaken s
  | .commitComplete verified => Sys2Proof.Machine.execCommitComplete verified s
  | .writeSettings => Sys2Proof.Machine.execWriteSettings s
  | .writeType => Sys2Proof.Machine.execWriteType s
  | .appendConsist => Sys2Proof.Machine.execAppendConsist s
  | .clearConsist => Sys2Proof.Machine.execClearConsist s
  | .writeLevel => Sys2Proof.Machine.execWriteLevel s
  | .writeCounter => Sys2Proof.Machine.execWriteCounter s
  | .readCounters => Sys2Proof.Machine.execReadCounters s
  | .resetCounters => Sys2Proof.Machine.execResetCounters s
  | .abortTrain => Sys2Proof.Machine.execAbortTrain s
  | .restart => Sys2Proof.Machine.execRestart s
  | .unknownRequest => Sys2Proof.Machine.execUnknownRequest s
  | .calEnChange level => Sys2Proof.Machine.execCalEnChange level s
  | .rlHoldAssert => Sys2Proof.Machine.execRlHoldAssert s
  | .rlHoldRelease wordTaken => Sys2Proof.Machine.execRlHoldRelease wordTaken s
  | .frameEnd wordTaken => Sys2Proof.Machine.execFrameEnd wordTaken s
  | .oversizedPayloadLength length => Sys2Proof.Machine.execOversizedPayloadLength length s
  | .undefinedKindFrame kind payload check => Sys2Proof.Machine.execUndefinedKindFrame kind payload check s

end Sys2Proof.Machine
end

