-- ==== Sys2Proof/Safety.lean ====
section
/-! DEFINITION. The terms that claims use: what a sender writes on the Track Link, a request that can be executed and its
answer, what a frame of the part leaves alone, and the invariants of the part. -/

namespace Sys2Proof.Machine

/-! ## What a sender writes (R178 to R180) -/

/-- The code of a sample status (R184). -/
def SampleStatus.code : SampleStatus → Nat
  | .ok => 0
  | .overrange => 1
  | .opened => 2

/-- A channel entry of a SCAN payload (R180). -/
def sampleBytes (x : Sample) : List Byte := intBytes 3 x.value ++ natBytes 1 x.status.code

/-- The kind of a frame. -/
def Inbound.kind : Inbound → Byte
  | .scan _ _ => kindScan
  | .wheel _ _ _ => kindWheel
  | .request _ => kindRequest

/-- The payload of a frame (R180). -/
def Inbound.payload : Inbound → List Byte
  | .scan number samples => natBytes 2 number.toNat ++ samples.flatMap sampleBytes
  | .wheel x number fraction => natBytes 1 x.code ++ natBytes 2 number.toNat ++ natBytes 1 fraction
  | .request r => r.tag :: r.code :: r.payload

/-- The frame's content fits its fields and the working Geometry Record (R15, R180). -/
def Inbound.valid (geometry : Option GeometryRecord) : Inbound → Bool
  | .scan _ samples =>
      decide (1 ≤ samples.length ∧ samples.length ≤ 8) &&
        (samples.all fun x => decide (-8388608 ≤ x.value ∧ x.value ≤ 8388607)) &&
        (geometry.all fun g => samples.length == 2 * g.zones.length)
  | .wheel _ _ fraction => decide (fraction ≤ 15)
  | .request r => decide (r.payload.length ≤ 32)

/-- The check word the sender transmits (R179). -/
def Inbound.check (f : Inbound) : Word16 := frameCheck (checkedBytes f.kind f.payload)

/-- The command that the frame makes. -/
def Inbound.command (f : Inbound) : Instr := frameCommand f.kind f.payload f.check

/-- What a rejected frame, or a discarded scan, makes of the part: one FRAME_REJECTED cause with the reason, one occurrence
of FRAMES_REJECTED, and a frame boundary (R15, R21, R159). -/
def State.rejecting (s : State) (reason : Nat) : Host.Outcome State Fault Refusal :=
  .next (boundary (countEvent .framesRejected 1 (raiseCause .frameRejected reason s)))

/-! ## Requests and answers (R167) -/

/-- The row that executes a request of a code (R167, R181); `wordTaken` is the operand of COMMIT_CALIBRATION. -/
def requestRow (code : Byte) (wordTaken : Bool) : Instr :=
  if code = codeReadStatus then .readStatus
  else if code = codeReadTable then .readTable
  else if code = codeReadNotices then .readNotices
  else if code = codeClearNotices then .clearNotices
  else if code = codeWriteGeometry then .writeGeometry
  else if code = codeWriteChannel then .writeChannel
  else if code = codeWriteSpeedCurve then .writeSpeedCurve
  else if code = codeWriteLimits then .writeLimits
  else if code = codeCommitCalibration then .commitCalibration wordTaken
  else if code = codeWriteSettings then .writeSettings
  else if code = codeWriteType then .writeType
  else if code = codeAppendConsist then .appendConsist
  else if code = codeClearConsist then .clearConsist
  else if code = codeWriteLevel then .writeLevel
  else if code = codeWriteCounter then .writeCounter
  else if code = codeReadCounters then .readCounters
  else if code = codeResetCounters then .resetCounters
  else if code = codeAbortTrain then .abortTrain
  else if code = codeRestart then .restart
  else .unknownRequest

/-- The head request r can be executed, `rest` being behind it: the part is not STARTING, and a place of the Response Queue
is free beside any reservation (R157, R167). -/
abbrev State.CanExecute (s : State) (r : Request) (rest : List Request) : Prop :=
  s.part ≠ .starting ∧ s.requests = r :: rest ∧ s.link.responses.length + s.cal.committing.isSome.toNat < 4

/-- The request removed from the buffer and its answer placed at the tail of the Response Queue (R167). -/
def State.answered (s : State) (r : Request) (rest : List Request) (st : Status) (payload : List Byte) : State :=
  { s with
    requests := rest
    link :=
      { s.link with
        responses := s.link.responses ++ [{ tag := r.tag, code := r.code, status := st, payload := payload }] } }

/-- The answer of READ TABLE to the named entry: its bytes behind the mark 1, or the mark 0 where none is held (R182). -/
def State.tableRead (s : State) (r : Request) (rest : List Request) (entry : Option (List Byte)) :
    Host.Outcome State Fault Refusal :=
  .next
    (boundary
      (s.answered r rest .ok
        (match entry with
          | some bytes => r.payload ++ 1 :: bytes
          | none => r.payload ++ [0])))

/-- An accepted metrological write of the tables `k`: CAL_PENDING set, readiness evaluated on them, answered OK (R10, R11,
R119). -/
def State.accepting (s : State) (r : Request) (rest : List Request) (k : Calibration) :
    Host.Outcome State Fault Refusal :=
  .next
    (boundary
      (State.answered
        { s with
          cal := { k with calPending := true }
          part := if Calibration.ready { k with calPending := true } then .ready else .notReady }
        r rest .ok []))

/-- The metrological tables in force: Geometry Record, Channel Records, Speed Curve, Limits and their origin. -/
def Calibration.tables (c : Calibration) :
    Option GeometryRecord × Vector (Option ChannelRecord) 8 × Option (Vector CurvePoint 8) × Limits × LimitsOrigin :=
  (c.geometry, c.channels, c.curve, c.limits, c.origin)

/-! ## Identities at the end of a train -/

/-- The vehicle after the train enters ENDING: if it waited, PRESENT with the entry of its position, TYPE_MISMATCH where an
expected field differs, or ABSENT with ID_MISSING where the list holds none (R149, R152). -/
def Vehicle.resolveAtEnding (list : List ConsistEntry) (v : Vehicle) : Vehicle :=
  if v.isWaiting then
    match entryAt list v.sequence with
    | some e =>
      { v with
        resolution := .present e.identity
        idFlags := if typeMismatch e v then v.idFlags ||| VehicleFlag.typeMismatch.mask else v.idFlags }
    | none => { v with resolution := .absent, idFlags := v.idFlags ||| VehicleFlag.idMissing.mask }
  else v

/-! ## Tables of checks -/

/-- In a table of checks, each with the field number reported for it, the first that fails reports `n`. -/
def FirstFails (checks : List (Prop × Nat)) (n : Nat) : Prop :=
  ∃ before p after, checks = before ++ (p, n) :: after ∧ (∀ c ∈ before, c.1) ∧ ¬p

/-! ## Counts and causes -/

/-- A counter after n occurrences of its event (R175, R177). -/
def Counter.counted (n : Nat) (c : Counter) : Counter :=
  { c with
    value := min 4294967295 (c.value + n)
    overflow := c.overflow || decide (c.value < 4294967295 ∧ 4294967295 ≤ c.value + n) }

/-- From s to t each statistics counter at most at its maximum adds `n` of it; every notice
kind but STATS_FULL and those of `except` stands, and so do the levels (R175, R177). -/
def State.Counts (s t : State) (n : Counter → Nat) (except : List NoticeKind) : Prop :=
  (∀ i : Fin 4, s.counters[i].value ≤ 4294967295 → t.counters[i] = s.counters[i].counted (n s.counters[i])) ∧
    t.notices.levels = s.notices.levels ∧
    ∀ m, m ≠ .statsFull → m ∉ except → t.notices.entry m = s.notices.entry m

/-- n for a counter of the event, 0 for another. -/
def Counter.ofEvent (e : CounterEvent) (n : Nat) (c : Counter) : Nat := if c.selection.event = e then n else 0

/-- The register entry of a kind at a level after causes with these arguments, in turn (R161). -/
def NoticeEntry.after (level : Nat) (args : List Nat) (e : NoticeEntry) : NoticeEntry :=
  match args.getLast? with
  | none => e
  | some a =>
    { pending := e.pending || level != 0, count := min 255 (e.count + args.length), lastArg := BitVec.ofNat 16 a }

/-! ## Windows and records -/

/-- A cancellation gives the record MOTION for a zone and rail: the axle counts as entered, its record is not finalized, and
the rail is undecided in the record and in a window held for its ordinal and generation (R76, R99). -/
abbrev State.CancelsRail (s : State) (a : AxleRecord) (z : Fin 4) (r : Rail) : Prop :=
  a.ordinal ≤ s.axles.lastOn ∧ a.finalized = false ∧ a.estimates[channelOf z r] = none ∧
    ∃ w ∈ s.zones[z].windows, w.ordinal = a.ordinal ∧ w.generation = a.generation ∧ (w.rail r).decided = none

/-- The estimates of record b are those of a after every window of s is cancelled (R99). -/
def State.CancelledEstimates (s : State) (a b : AxleRecord) : Prop :=
  ∀ (z : Fin 4) (r : Rail),
    b.estimates[channelOf z r] =
      if s.CancelsRail a z r then some { condition := .motion, mass := none } else a.estimates[channelOf z r]

/-- The undecided rails of the windows held, each one ZONE_REJECTS at a cancellation (R97, R99). -/
def State.undecidedRails (s : State) : Nat :=
  ((List.finRange 4).flatMap fun z =>
      s.zones[z].windows.map fun w => w.north.decided.isNone.toNat + w.south.decided.isNone.toNat).sum

/-- From s to t the Zone Units predict the entry of record a with the pace: zone by zone the window of R90 is placed at the
tail, where there is room, PENDING or DONE with the condition of R91, which the record then holds for both rails; the
partial blocks of active channels are emptied where the window's covered span has begun (R84); a zone not in use is left
alone. -/
def State.Predicts (s t : State) (d : Direction) (a : AxleRecord) (pace : Nat) : Prop :=
  ∀ z : Fin 4,
    (s.cal.zoneCount ≤ z.val → t.zones[z] = s.zones[z] ∧ ∀ r, a.estimates[channelOf z r] = none) ∧
      ∀ (g : GeometryRecord) (span : ZoneSpan) (w : Window) (k : Option Condition),
        s.cal.geometry = some g → g.zones[z.val]? = some span →
          w = zoneWindow g d s.cal.limits.trimEighths span a.ordinal a.generation a.entryTime pace →
            k = predictionCondition s.rx.time s.cal.limits.nMin s.cal.limits.tol s.zones[z].windows w →
              (∀ r, a.estimates[channelOf z r] = k.map fun x => { condition := x, mass := none }) ∧
                t.zones[z].windows =
                  (if s.zones[z].windows.length < 48 then
                    s.zones[z].windows ++
                      [match k with
                        | none => w
                        | some x =>
                          { w with
                            state := .done
                            north := { w.north with decided := some x }
                            south := { w.south with decided := some x } }]
                  else s.zones[z].windows) ∧
                ∀ r,
                  t.zones[z].channel r =
                    if s.zones[z].windows.length < 48 ∧
                        0 ≤ (s.rx.time - (w.inScan - BitVec.ofNat 32 s.cal.limits.tol)).toInt ∧
                          s.cal.channels[channelOf z r] ≠ none then
                      { s.zones[z].channel r with blockCount := 0, blockSum := 0 }
                    else s.zones[z].channel r

/-- The rails decided at prediction in a fresh record, each one ZONE_REJECTS (R91, R97). -/
def AxleRecord.decidedRails (a : AxleRecord) : Nat :=
  ((List.finRange 8).filter fun ch => a.estimates[ch] ≠ none).length

/-! ## Judging a Type Table entry (R131) -/

/-- The spacing of an ordinal is looked at, since the ordinal is entered, and known to be d. -/
def AxleTracker.KnownSpacing (x : AxleTracker) (ordinal d : Nat) : Prop :=
  ordinal ≤ x.lastOn ∧ x.spacingAt ordinal = some d

/-- The entry fails for first unassigned ordinal k: one of the vehicle's own spacings is known and outside its band, or the
trailing gap is known and below its minimum. -/
def AxleTracker.Fails (x : AxleTracker) (k : Nat) (t : VehicleType) : Prop :=
  (∃ i s d, t.spacings[i]? = some s ∧ x.KnownSpacing (k + i + 1) d ∧ (d + t.tolerance < s ∨ s + t.tolerance < d)) ∨
    ∃ d, x.KnownSpacing (k + t.axles) d ∧ d < t.gapMin

/-- Ordinals k + 1 to k + i − 1 are entered with known spacings below the split gap (R134). -/
def AxleTracker.RunsOn (x : AxleTracker) (splitGap k i : Nat) : Prop :=
  ∀ j, 1 ≤ j → j < i → ∃ d, x.KnownSpacing (k + j) d ∧ d < splitGap

/-! ## Invariants -/

/-- An IDLE transmitter with RL_HOLD released has nothing to send (R159). -/
abbrev State.Conserving (s : State) : Prop := s.hold = false → s.link.sending = none → s.arbiter = none

/-- The queues of the Record Link, the Request Buffer and the Consist List hold no more than their capacity, the
reservation of a commit counting as a response (R145, R155 to R157, R166). -/
abbrev State.QueuesFit (s : State) : Prop :=
  s.link.records.length ≤ 64 ∧ s.link.details.length ≤ 32 ∧
    s.link.responses.length + s.cal.committing.isSome.toNat ≤ 4 ∧ s.requests.length ≤ 4 ∧ s.consist.length ≤ 512

/-- The Axle Queue, the Window Lists and the Assembly List hold no more than their capacity (R65, R89, R129). -/
abbrev State.ListsFit (s : State) : Prop :=
  s.axles.queue.length ≤ 128 ∧ (∀ z : Fin 4, s.zones[z].windows.length ≤ 48) ∧ s.asm.list.length ≤ 16

/-- The axle records stand in ascending ordinal order, from 1 to highest, and highest is at most 4,095 (R65); each holds
none but the twelve axle flags (R77), and an axle load exactly when it holds both rail loads, being their sum (R111). -/
abbrev State.AxlesSound (s : State) : Prop :=
  (s.axles.queue.map AxleRecord.ordinal).Pairwise (· < ·) ∧
    (∀ a ∈ s.axles.queue,
      1 ≤ a.ordinal ∧ a.ordinal ≤ s.axles.highest ∧ a.flags.toNat < 4096 ∧
        a.axleLoad = (a.north.bind fun n => a.south.map fun m => n + m)) ∧
    s.axles.highest ≤ 4095

/-- The ordinal bounds count the axles on the section: entries − backouts − exits + returns, modulo 2^32 (R48); a train
that runs or stands has last_on at most highest (R64). -/
abbrev State.BoundsCount (s : State) : Prop :=
  (s.train.ctx.all fun c =>
    decide
      (1 ≤ s.axles.firstOn ∧ s.axles.firstOn ≤ s.axles.lastOn + 1 ∧
        (s.train.state = .running ∨ s.train.state = .standing → s.axles.lastOn ≤ s.axles.highest) ∧
        BitVec.ofNat 32 (s.axles.lastOn + 1 - s.axles.firstOn) = c.entries - c.backouts - c.exits + c.returns)) = true

/-- The vehicles of the Assembly List stand in ascending sequence order below next_seq, and at most four wait for an
identity (R129, R150). -/
abbrev State.VehiclesOrdered (s : State) : Prop :=
  (s.asm.list.map Vehicle.sequence).Pairwise (· < ·) ∧ (∀ v ∈ s.asm.list, v.sequence < s.asm.nextSeq) ∧
    (s.asm.list.filter Vehicle.isWaiting).length ≤ 4

/-- The train context is held while a train is RUNNING, STANDING or ENDING (R47) and holds an end reason and an end scan
exactly in ENDING (R59), the quiet timer runs in RUNNING, STANDING and IGNORING (section 4.2), windows are held only in
RUNNING (R99, R101), and the silence timer runs while SYNCED (R18). -/
abbrev State.TimersFollow (s : State) : Prop :=
  s.train.ctx.isSome = s.busyTrain ∧
    (s.train.ctx.all fun c =>
      c.endReason.isSome == (s.train.state == .ending) && c.endScan.isSome == (s.train.state == .ending)) = true ∧
    (s.train.quiet.isSome = true ↔
      s.train.state = .running ∨ s.train.state = .standing ∨ s.train.state = .ignoring) ∧
    (s.train.state ≠ .running → ∀ z : Fin 4, s.zones[z].windows = []) ∧ s.rx.silence = s.rx.synced

/-- Each working table that is held passes its own checks, the Geometry Record and the Limits against each other (R8, R9,
R115 to R117), outside STARTING the part is READY exactly when R11 says so, and a channel without a Channel Record has
gathered no block and no run (R81, R82). -/
abbrev State.TablesSound (s : State) : Prop :=
  (s.cal.geometry.all fun g => geometryFault s.cal.limits.minZones g == none) = true ∧
    (∀ ch : Fin 8, (s.cal.channels[ch].all fun c => channelFault c == none) = true) ∧
    (s.cal.curve.all fun c => curveFault c == none) = true ∧ limitsFault s.cal.maxMinZones s.cal.limits = none ∧
    (s.part ≠ .starting → (s.part = .ready ↔ s.cal.ready = true)) ∧
    ∀ ch : Fin 8,
      s.cal.channels[ch] = none →
        s.zones[channelZone ch].channel (channelRail ch) =
          { s.zones[channelZone ch].channel (channelRail ch) with blockCount := 0, blockSum := 0, run := none }

/-- The working adjustment counter is the store word, a blank word reading as 0, and at most 65,535 (R120). -/
abbrev State.CounterAgrees (s : State) : Prop := s.store.word.getD 0 = s.cal.counter ∧ s.cal.counter ≤ 65535

/-- A kind at level 0 is not pending (R163), a pending kind has a count of 1 to 255 (R162), and levels are 0 to 7. -/
abbrev State.NoticesSound (s : State) : Prop :=
  ∀ i : Fin 16,
    s.notices.levels[i] ≤ 7 ∧ s.notices.register[i].count ≤ 255 ∧
      (s.notices.register[i].pending = true → s.notices.levels[i] ≠ 0 ∧ 1 ≤ s.notices.register[i].count)

/-- Every invariant of this file at once. -/
abbrev State.Sound (s : State) : Prop :=
  s.Conserving ∧ s.QueuesFit ∧ s.ListsFit ∧ s.AxlesSound ∧ s.BoundsCount ∧ s.VehiclesOrdered ∧ s.TimersFollow ∧
    s.TablesSound ∧ s.CounterAgrees ∧ s.NoticesSound

end Sys2Proof.Machine
end

