-- ==== Sys2Proof/Certificates/Slice0/Obligations.lean ====
section
/-! DEFINITION. The statements for the provers. Each docstring names the rules it rests on; a clause that rests on a choice
of the model names its row of notes/assumptions. `boundary` is the frame boundary that ends a step (R159,
notes/assumptions/10.md), described by BoundaryStartsTheFirstCandidate; `raiseCause` and `countEvent` are described by NoticeCausesAreRegistered and
OccurrencesAreCounted. -/

open Sys2Proof Sys2Proof.Machine

/-! ## The machine and the shared operations -/

/-- A step takes the command at the front of the queue and is that command's effect on the rest; on an empty queue the part
idles (notes/assumptions/1.md, 2.md). -/
def Obligations.StepRunsTheFrontCommand : Prop :=
  ∀ (c : Instr) (rest : List Instr) (s : State),
    step { s with pending := c :: rest } = exec c { s with pending := rest } ∧
      step { s with pending := [] } = .next { s with pending := [] }

/-- No command stops the part, and none touches the commands that wait behind it. -/
def Obligations.EveryCommandAnswersANextState : Prop :=
  ∀ (c : Instr) (s : State), ∃ t, exec c s = .next t ∧ t.pending = s.pending

/-- A cause: the count increments and holds at 255, the last argument is overwritten, the mark is set at a level of 1 to 7;
no other kind, no level and nothing else changes (R161). -/
def Obligations.NoticeCausesAreRegistered : Prop :=
  ∀ (k : NoticeKind) (n : Nat) (s : State),
    ∃ u : NoticeUnit,
      raiseCause k n s = { s with notices := u } ∧ u.levels = s.notices.levels ∧
        u.entry k =
          { pending := (s.notices.entry k).pending || s.notices.level k != 0
            count := min 255 ((s.notices.entry k).count + 1)
            lastArg := BitVec.ofNat 16 n } ∧
        ∀ m, m ≠ k → u.entry m = s.notices.entry m

/-- `n` occurrences of a count event: each counter that selects it adds n, held at 4,294,967,295 with the overflow flag set
when it gets there; a counter of another event keeps all it holds; a counter that gets there raises STATS_FULL, and no
other notice is touched (R175, R177; that reaching the maximum is what counts is notes/assumptions/13.md). -/
def Obligations.OccurrencesAreCounted : Prop :=
  ∀ (e : CounterEvent) (n : Nat) (s : State),
    ∃ (k : Vector Counter 4) (u : NoticeUnit),
      countEvent e n s = { s with counters := k, notices := u } ∧
        (∀ i : Fin 4,
          k[i] =
            if s.counters[i].selection.event = e then
              { s.counters[i] with
                value := min 4294967295 (s.counters[i].value + n)
                overflow :=
                  s.counters[i].overflow ||
                    decide (s.counters[i].value < 4294967295 ∧ 4294967295 ≤ s.counters[i].value + n) }
            else s.counters[i]) ∧
        (∀ m, m ≠ .statsFull → u.entry m = s.notices.entry m) ∧ u.levels = s.notices.levels ∧
        ((∀ i : Fin 4,
            s.counters[i].selection.event = e →
              4294967295 ≤ s.counters[i].value ∨ s.counters[i].value + n < 4294967295) →
          u = s.notices) ∧
        (∀ i : Fin 4,
          s.counters[i].selection.event = e → s.counters[i].value < 4294967295 →
            4294967295 ≤ s.counters[i].value + n → (u.entry .statsFull).count ≠ 0)

/-- The notice chosen among the pending ones of the levels lo to hi is of the highest level, and among equal levels of the
highest kind number; none is chosen exactly when none is pending there (R159, orders 2 and 4). -/
def Obligations.NoticeChoiceIsTheHighest : Prop :=
  ∀ (u : NoticeUnit) (lo hi : Nat),
    (∀ k : NoticeKind,
        u.choose lo hi = some k ↔
          ((u.entry k).pending = true ∧ lo ≤ u.level k ∧ u.level k ≤ hi) ∧
            ∀ m : NoticeKind,
              (u.entry m).pending = true → lo ≤ u.level m → u.level m ≤ hi →
                u.level m < u.level k ∨ (u.level m = u.level k ∧ m.index ≤ k.index)) ∧
      (u.choose lo hi = none ↔
        ∀ m : NoticeKind, (u.entry m).pending = true → ¬(lo ≤ u.level m ∧ u.level m ≤ hi))

/-- A boundary: with RL_HOLD asserted, a frame going out, or nothing to send, nothing changes; otherwise the first candidate
of R159 leaves its queue, or is read out of the register with its mark and count cleared, and its frame is SENDING (R158,
R159, R160, R162). -/
def Obligations.BoundaryStartsTheFirstCandidate : Prop :=
  ∀ s : State,
    (s.hold = true → boundary s = s) ∧
      (s.link.sending.isSome = true → boundary s = s) ∧
      (s.hold = false → s.link.sending = none →
        (∀ r rest, s.link.responses = r :: rest →
            boundary s = { s with link := { s.link with responses := rest, sending := some (responseFrame r) } }) ∧
        (s.link.responses = [] →
          (∀ k, s.notices.choose 5 7 = some k →
              boundary s =
                { s with
                  link := { s.link with sending := some (noticeFrame k (s.notices.entry k)) }
                  notices := s.notices.setEntry k { s.notices.entry k with pending := false, count := 0 } }) ∧
          (s.notices.choose 5 7 = none →
            (∀ q rest, s.link.records = q :: rest →
                boundary s = { s with link := { s.link with records := rest, sending := some (recordFrame q) } }) ∧
            (s.link.records = [] →
              (∀ k, s.notices.choose 1 4 = some k →
                  boundary s =
                    { s with
                      link := { s.link with sending := some (noticeFrame k (s.notices.entry k)) }
                      notices := s.notices.setEntry k { s.notices.entry k with pending := false, count := 0 } }) ∧
              (s.notices.choose 1 4 = none →
                (∀ d rest, s.link.details = d :: rest →
                    boundary s = { s with link := { s.link with details := rest, sending := some (detailFrame d) } }) ∧
                (s.link.details = [] → boundary s = s))))))

/-! ## Reset and the start-up load -/

/-- Power-on or the reset input: the part is STARTING, every volatile state is at its initial value, the counter word stands,
an image write under way is left failing its check (R18, R30, R40, R49, R64, R81, R123, R125, R165, R173). That the input
levels stand is notes/assumptions/7.md, that the working adjustment counter stands notes/assumptions/8.md. -/
def Obligations.PowerOnResetRestoresTheInitialState : Prop :=
  ∀ s : State,
    ∃ t,
      exec .powerOnReset s = .next t ∧ t.part = .starting ∧ t.calEn = s.calEn ∧ t.hold = s.hold ∧
        t.rx = { time := 0, lastScan := 0, synced := false, syncScan := 0, silence := false } ∧
        t.west = { pending := none, rockCount := 0 } ∧ t.east = { pending := none, rockCount := 0 } ∧
        t.pace = { history := [], coarse := 0, fine := 0, lock := .none, running := none } ∧
        t.train = { state := .idle, ctx := none, nextNumber := 1, quiet := none, ignoredBetween := 0 } ∧
        t.axles = { highest := 0, firstOn := 1, lastOn := 0, lowestHeld := 1, queue := [] } ∧
        (∀ z : Fin 4,
          t.zones[z].windows = [] ∧
            t.zones[z].north =
              { baseline := 0, zeroFault := false, blockCount := 0, blockSum := 0, presence := .empty, run := none } ∧
            t.zones[z].south = t.zones[z].north) ∧
        t.cal.geometry = none ∧ (∀ ch : Fin 8, t.cal.channels[ch] = none) ∧ t.cal.curve = none ∧
        t.cal.limits =
          { trimEighths := 1, nMin := 8, minZones := 2, spreadLimit := 26, tol := 12, nOn := 4, nOff := 4, vMin := 50
            vMax := 800, accelLimit := 4, lrLimit := 38, endLimit := 64 } ∧
        t.cal.origin = .default ∧ t.cal.calPending = false ∧ t.cal.committing = none ∧ t.cal.counter = s.cal.counter ∧
        t.store.word = s.store.word ∧ (∀ b, s.store.image = .writing b → t.store.image = .damaged) ∧
        ((∀ b, s.store.image ≠ .writing b) → t.store.image = s.store.image) ∧
        (∀ i : Fin 32, t.asm.types[i] = none) ∧ t.asm.list = [] ∧ t.asm.nextSeq = 1 ∧ t.asm.firstFree = 1 ∧
        t.consist = [] ∧ t.link = { records := [], details := [], responses := [], sending := none } ∧
        (∀ k : NoticeKind, t.notices.entry k = { pending := false, count := 0, lastArg := 0 }) ∧
        t.notices.levels = #v[4, 6, 2, 3, 7, 2, 5, 3, 2, 5, 6, 7, 4, 7, 1, 5] ∧ t.requests = [] ∧
        t.settings = { quietTime := 8000, idWait := 4000, splitGap := 2200, axleDetail := false } ∧
        (∀ i : Fin 4,
          t.counters[i] =
            { value := 0, overflow := false, previous := false
              selection := { event := .none, threshold := 0, invert := false, edge := false, low := 0, high := 0 } }) ∧
        t.pending = s.pending

/-- The start-up load: the counter word, then the tables of a good image with origin LOADED; of a blank one none and the
Limits at DEFAULT; of a failed one, or of one the store cannot read, the same with a STORE_FAULT cause, argument start-up.
Every channel's baseline becomes 8 × zero_cal of its record, or 0, readiness is evaluated, and STARTING ends (R81, R120,
R125). The store's answer is an operand (notes/assumptions/14.md); outside STARTING there is no load
(notes/assumptions/1.md). -/
def Obligations.StartUpLoadReadsTheStore : Prop :=
  (∀ (s : State) (bytes : List Byte) (t : ImageTables),
      s.part = .starting → s.store.image = .held bytes → parseImage bytes = some t →
        exec (.startUpLoad true) s =
          .next
            (boundary
              (evaluateReadiness
                (reloadZones
                  { s with
                    cal :=
                      { geometry := some t.geometry, channels := t.channels, curve := some t.curve, limits := t.limits
                        origin := .loaded, calPending := false, counter := s.store.word.getD 0, committing := none } })))) ∧
    (∀ s : State,
      s.part = .starting → s.store.image = .blank →
        exec (.startUpLoad true) s =
          .next
            (boundary
              { reloadZones { s with cal := { Calibration.reset with counter := s.store.word.getD 0 } } with
                part := .notReady })) ∧
    (∀ (s : State) (readable : Bool),
      s.part = .starting →
        readable = false ∨ (∀ b, s.store.image = .held b → parseImage b = none) ∧ s.store.image ≠ .blank →
          exec (.startUpLoad readable) s =
            .next
              (boundary
                { raiseCause .storeFault 2
                    (reloadZones { s with cal := { Calibration.reset with counter := s.store.word.getD 0 } }) with
                  part := .notReady })) ∧
    (∀ (s : State) (ch : Fin 8),
      (reloadZones s).zones[channelZone ch].channel (channelRail ch) =
        { baseline := (s.cal.channels[ch].map fun c => 8 * c.zeroCal).getD 0, zeroFault := false, blockCount := 0
          blockSum := 0, presence := .empty, run := none }) ∧
    ∀ (s : State) (readable : Bool), s.part ≠ .starting → exec (.startUpLoad readable) s = .next s

/-- What a commit writes is what a start-up load reads: the image of tables that pass their checks is judged good and gives
back those tables (R121, R124, R125, R185). -/
def Obligations.CommittedImageLoadsBack : Prop :=
  ∀ (g : GeometryRecord) (cs : Vector (Option ChannelRecord) 8) (k : Vector CurvePoint 8) (l : Limits),
    geometryFault l.minZones g = none → (∀ ch : Fin 8, ∀ c, cs[ch] = some c → channelFault c = none) →
      curveFault k = none → limitsFault g.zones.length l = none →
        parseImage (imageBytes g cs k l) = some { geometry := g, channels := cs, curve := k, limits := l }

/-! ## The Track Link -/

/-- Every frame a sender can write within the layouts of R180 is accepted with exactly the content it was written from, when
its check is the one of R179 and a SCAN carries the 2Z entries of the working Geometry Record (R15). -/
def Obligations.AcceptedFramesReadBack : Prop :=
  ∀ (geometry : Option GeometryRecord) (f : Inbound),
    f.valid geometry = true → examine geometry f.kind f.payload f.check = .accepted f

/-- The hunt passes over every byte that is no start delimiter, reads one frame, and goes on behind it; a length above 34 is
one OVERSIZED_PAYLOAD_LENGTH and the hunt resumes at the byte after the delimiter (R14; notes/assumptions/4.md). -/
def Obligations.DeframeReadsTheNextFrame : Prop :=
  (∀ (noise rest : List Byte) (kind : Byte) (p : List Byte) (check : Word16),
      (∀ b ∈ noise, b ≠ 0xA5) → p.length ≤ 34 →
        deframe (noise ++ envelope kind p check ++ rest) =
          (frameCommand kind p check :: (deframe rest).1, (deframe rest).2)) ∧
    ∀ (noise rest : List Byte) (kind hi lo : Byte),
      (∀ b ∈ noise, b ≠ 0xA5) → 34 < be [hi, lo] →
        deframe (noise ++ 0xA5 :: kind :: hi :: lo :: rest) =
          (.oversizedPayloadLength (hi ++ lo) :: (deframe (kind :: hi :: lo :: rest)).1,
            (deframe (kind :: hi :: lo :: rest)).2)

/-- The five frame events: in STARTING nothing happens (R16); otherwise a frame that fails a check of R15 raises one
FRAME_REJECTED cause with the reason listed against the first failing check and is one occurrence of FRAMES_REJECTED, and
a frame abandoned or with a length above 34 is rejected with reason LENGTH (R14, R15). -/
def Obligations.RejectedFramesAreReported : Prop :=
  ∀ (s : State) (k : Byte) (p : List Byte) (c n : Word16),
    (s.part = .starting →
      exec .frameByteTimeout s = .next s ∧ exec (.oversizedPayloadLength n) s = .next s ∧
        exec (.scanFrame p c) s = .next s ∧ exec (.wheelFrame p c) s = .next s ∧
        exec (.requestFrame p c) s = .next s ∧ exec (.undefinedKindFrame k p c) s = .next s) ∧
    (s.part ≠ .starting →
      exec .frameByteTimeout s = s.rejecting 3 ∧
        (34 < n.toNat → exec (.oversizedPayloadLength n) s = s.rejecting 3) ∧
        (p.length ≤ 34 →
          (checkPasses (checkedBytes k p) c = false →
            exec (.undefinedKindFrame k p c) s = s.rejecting 1 ∧ (k = kindScan → exec (.scanFrame p c) s = s.rejecting 1) ∧
              (k = kindWheel → exec (.wheelFrame p c) s = s.rejecting 1) ∧ (k = kindRequest → exec (.requestFrame p c) s = s.rejecting 1)) ∧
          (checkPasses (checkedBytes k p) c = true →
            (k ≠ kindScan → k ≠ kindWheel → k ≠ kindRequest → exec (.undefinedKindFrame k p c) s = s.rejecting 2) ∧
              (k = kindScan → (∀ m, 1 ≤ m → m ≤ 8 → p.length ≠ 2 + 4 * m) → exec (.scanFrame p c) s = s.rejecting 3) ∧
              (k = kindWheel → p.length ≠ 4 → exec (.wheelFrame p c) s = s.rejecting 3) ∧
              (k = kindRequest → p.length < 2 → exec (.requestFrame p c) s = s.rejecting 3) ∧
              (∀ (g : GeometryRecord) (m : Nat),
                k = kindScan → s.cal.geometry = some g → 1 ≤ m → m ≤ 8 → p.length = 2 + 4 * m → m ≠ 2 * g.zones.length →
                  exec (.scanFrame p c) s = s.rejecting 4) ∧
              (∀ m : Nat,
                k = kindScan → 1 ≤ m → m ≤ 8 → p.length = 2 + 4 * m →
                  (∀ g, s.cal.geometry = some g → m = 2 * g.zones.length) → (∃ i, i < m ∧ 2 < natAt p (5 + 4 * i) 1) →
                    exec (.scanFrame p c) s = s.rejecting 5) ∧
              (k = kindWheel → p.length = 4 → natAt p 0 1 = 0 ∨ 4 < natAt p 0 1 ∨ 15 < natAt p 3 1 →
                exec (.wheelFrame p c) s = s.rejecting 5))))

/-- An accepted SCAN frame: while UNSYNCED it synchronizes, T advancing by one; while SYNCED a next scan advances T by one,
a gap of d by d with a SCAN_GAP cause of d − 1 and d − 1 occurrences of SCANS_LOST, the scans between being missing, and
a jump loses sync and synchronizes (R19, R20, R22); a duplicate and a stale scan are discarded with a FRAME_REJECTED cause
and one occurrence of FRAMES_REJECTED, and nothing else (R21). `handOver` is what the new T and the samples reach:
with no Geometry Record the sampling counters alone (R25). With one, each Zone Unit in use takes its two samples (its scan is
described by WheelMassDecidesTheRail); the estimates it hands on are written into the records where all of R76 hold, with
their flags, and dropped otherwise; each one that is not VALID is an occurrence of ZONE_REJECTS, each phantom one of PHANTOMS
and, in a RUNNING train not DISTURBED, a PHANTOM_WHEEL cause; each sample not OK and each failing block is a CHANNEL_FAULT
cause of its channel (R26, R76, R83, R85, R95, R97; the order of the causes is notes/assumptions/11.md). -/
def Obligations.ScansAdvanceTimeByTheirNumber : Prop :=
  (∀ (missing : Option (Scan × Scan)) (samples : List Sample) (s t : State),
      t = handOver missing samples s →
        t = { s with
              zones := t.zones, axles := { s.axles with queue := t.axles.queue }, counters := t.counters
              notices := t.notices } ∧
          (∀ j a, s.axles.find j = some a →
            ∃ b, t.axles.find j = some b ∧ b = { a with estimates := b.estimates, flags := b.flags }) ∧
          (s.cal.geometry = none → t = sampleOccupancy s)) ∧
  (∀ (missing : Option (Scan × Scan)) (samples : List Sample) (s t : State) (g : GeometryRecord) (n o : Fin 4 → Sample)
      (y : Fin 4 → ZoneScan) (handed : List Handed) (reports : Bool),
    s.cal.geometry = some g → g.zones.length ≤ 4 → samples.length = 2 * g.zones.length →
      (∀ z : Fin 4, z.val < g.zones.length →
        samples[2 * z.val]? = some (n z) ∧ samples[2 * z.val + 1]? = some (o z)) →
      (∀ z : Fin 4,
        y z =
          if z.val < g.zones.length then s.zones[z].scan (s.cal.zoneTables z) s.rx.time missing (n z) (o z)
          else { unit := s.zones[z], handed := [], phantoms := [], failing := [] }) →
      handed = ((List.finRange 4).flatMap fun z => (y z).handed) →
      (reports = true ↔ s.train.state = .running ∧ ∀ c, s.train.ctx = some c → c.disturbed = false) →
        t = handOver missing samples s →
          (∀ z : Fin 4, t.zones[z] = (y z).unit) ∧
          t.axles.queue =
            (s.axles.queue.map fun a =>
              handed.foldl (fun a h => if h.ordinal = a.ordinal then a.takeEstimate s.axles.lastOn h else a) a) ∧
          (sampleOccupancy s).Counts t
            (fun c =>
              c.ofEvent .zoneRejects (handed.filter fun h => h.condition ≠ .valid).length +
                c.ofEvent .phantoms ((List.finRange 4).flatMap fun z => (y z).phantoms).length)
            [.channelFault, .phantomWheel] ∧
          t.notices.entry .channelFault =
            (s.notices.entry .channelFault).after (s.notices.level .channelFault)
              (((samples.zipIdx.filter fun x => x.1.status ≠ .ok).map Prod.snd) ++
                (List.finRange 4).flatMap fun z => (y z).failing.map fun r => (channelOf z r).val) ∧
          t.notices.entry .phantomWheel =
            (s.notices.entry .phantomWheel).after (s.notices.level .phantomWheel)
              (if reports then (List.finRange 4).flatMap fun z => (y z).phantoms.map fun r => (channelOf z r).val
              else [])) ∧
  (∀ (lastOn : Nat) (h : Handed) (a b : AxleRecord),
    b = a.takeEstimate lastOn h →
      (a.ordinal ≤ lastOn → h.generation = a.generation → a.finalized = false → a.estimates[h.channel] = none →
        b = { a with estimates := b.estimates, flags := b.flags } ∧
          (∀ ch : Fin 8,
            b.estimates[ch] =
              if ch = h.channel then some { condition := h.condition, mass := h.mass } else a.estimates[ch]) ∧
          ∀ f : AxleFlag,
            hasAxleFlag b.flags f = true ↔
              hasAxleFlag a.flags f = true ∨ (f = .underzero ∧ h.belowZero = true) ∨
                (f = .overrange ∧ h.aboveRange = true) ∨ (f = .zeroSuspect ∧ h.zeroSuspect = true)) ∧
      (lastOn < a.ordinal ∨ h.generation ≠ a.generation ∨ a.finalized = true ∨ a.estimates[h.channel] ≠ none → b = a)) ∧
  ∀ (s : State) (number : Word16) (samples : List Sample) (d : Nat),
    s.part ≠ .starting → (Inbound.scan number samples).valid s.cal.geometry = true →
      (s.rx.synced = false →
        exec (Inbound.scan number samples).command s =
          .next
            (boundary
              (handOver none samples
                { s with
                  rx :=
                    { time := s.rx.time + 1, lastScan := number, synced := true, syncScan := s.rx.time + 1
                      silence := true } }))) ∧
      (s.rx.synced = true → number = s.rx.lastScan + BitVec.ofNat 16 d →
        (d = 1 →
          exec (Inbound.scan number samples).command s =
            .next
              (boundary
                (handOver none samples
                  { s with rx := { s.rx with time := s.rx.time + 1, lastScan := number, silence := true } }))) ∧
        (2 ≤ d → d ≤ 256 →
          exec (Inbound.scan number samples).command s =
            .next
              (boundary
                (handOver (some (s.rx.time + 1, s.rx.time + BitVec.ofNat 32 (d - 1))) samples
                  { countEvent .scansLost (d - 1) (raiseCause .scanGap (d - 1) s) with
                    rx := { s.rx with time := s.rx.time + BitVec.ofNat 32 d, lastScan := number, silence := true } }))) ∧
        (257 ≤ d → d ≤ 32767 →
          exec (Inbound.scan number samples).command s =
            .next
              (boundary
                (handOver none samples
                  { raiseCause .trackSyncLost 1 (loseSync s) with
                    rx :=
                      { time := s.rx.time + 1, lastScan := number, synced := true, syncScan := s.rx.time + 1
                        silence := true } }))) ∧
        (d = 0 → exec (Inbound.scan number samples).command s = s.rejecting 6) ∧
        (32768 ≤ d → d ≤ 65535 → exec (Inbound.scan number samples).command s = s.rejecting 7))

/-- SILENCE_TIMEOUT while the timer runs loses sync, raises TRACK_SYNC_LOST with argument SILENCE and advances no T (R23); a
loss of sync stops the timer, empties the Window Lists and the partial block and presence run of each channel that is in use
with a Channel Record, resets both pair units, and aborts a RUNNING or STANDING train with TIME_BASE; baselines, presence
states and any other train state stand (R24). A channel without a record keeps all its state (R82), and has neither block nor
run to discard (StepsKeepTablesAndReadinessSound); a channel not in use keeps its state as well (R2; that the channels of R24
are those that the section has is notes/assumptions/22.md). With the timer stopped nothing happens
(notes/assumptions/1.md). -/
def Obligations.LossOfSyncEmptiesTheWindows : Prop :=
  (∀ s : State,
      (s.rx.silence = true →
        exec .silenceTimeout s = .next (boundary (raiseCause .trackSyncLost 2 (loseSync s)))) ∧
      (s.rx.silence = false → exec .silenceTimeout s = .next s)) ∧
    ∀ s : State,
      (loseSync s).rx = { s.rx with synced := false, silence := false } ∧
        (loseSync s).west = { pending := none, rockCount := 0 } ∧
        (loseSync s).east = { pending := none, rockCount := 0 } ∧
        (∀ z : Fin 4,
          (loseSync s).zones[z].windows = [] ∧
            ∀ r : Rail,
              (∀ g, s.cal.geometry = some g → z.val < g.zones.length → s.cal.channels[channelOf z r] ≠ none →
                (loseSync s).zones[z].channel r =
                  { s.zones[z].channel r with blockCount := 0, blockSum := 0, run := none }) ∧
              ((∀ g, s.cal.geometry = some g → g.zones.length ≤ z.val) ∨ s.cal.channels[channelOf z r] = none →
                (loseSync s).zones[z].channel r = s.zones[z].channel r)) ∧
        (s.train.state = .running ∨ s.train.state = .standing →
          (loseSync s).train.state = .ending ∧ (loseSync s).train.quiet = none ∧
            (loseSync s).notices = s.notices.raise .trainAborted 5 ∧
            ∀ c, s.train.ctx = some c →
              ∃ c', (loseSync s).train.ctx = some c' ∧ c'.endReason = some .timeBase ∧ c'.endScan = some s.rx.time) ∧
        (s.train.state ≠ .running → s.train.state ≠ .standing →
          loseSync s =
            { s with
              rx := (loseSync s).rx, west := (loseSync s).west, east := (loseSync s).east, zones := (loseSync s).zones })

/-- WHEEL frames: while UNSYNCED, and where R28 says discarded, one EVENT_DISCARDED cause with the detector and nothing else;
otherwise the event goes to the pair unit of its side at E16 = 16 × event time + fraction (R27, R28, R29). T − sync scan is
read modulo 2^32 (notes/assumptions/24.md). A REQUEST frame enters the Request Buffer behind those before it, unless it holds
four: then it is dropped with an MGMT_OVERRUN cause, the tag as its argument (R17, R161, R166). -/
def Obligations.WheelAndRequestFramesAreRouted : Prop :=
  (∀ (s : State) (x : Detector) (number : Word16) (fraction back : Nat),
      s.part ≠ .starting → fraction ≤ 15 → back < 65536 → number = s.rx.lastScan - BitVec.ofNat 16 back →
        (s.rx.synced = false ∨
            (back ≤ 64 ∧ (s.rx.time - s.rx.syncScan).toNat < back) ∨ (65 ≤ back ∧ back ≤ 65531) →
          exec (Inbound.wheel x number fraction).command s =
            .next (boundary (raiseCause .eventDiscarded x.code s))) ∧
        (s.rx.synced = true →
          (back ≤ 64 → back ≤ (s.rx.time - s.rx.syncScan).toNat →
            exec (Inbound.wheel x number fraction).command s =
              .next
                (boundary
                  (takeEvent x (BitVec.ofNat 36 (16 * (s.rx.time - BitVec.ofNat 32 back).toNat + fraction)) s))) ∧
          (65532 ≤ back →
            exec (Inbound.wheel x number fraction).command s =
              .next
                (boundary
                  (takeEvent x
                    (BitVec.ofNat 36 (16 * (s.rx.time + BitVec.ofNat 32 (65536 - back)).toNat + fraction)) s))))) ∧
    ∀ (s : State) (r : Request),
      s.part ≠ .starting → r.payload.length ≤ 32 →
        (s.requests.length < 4 →
          exec (Inbound.request r).command s = .next (boundary { s with requests := s.requests ++ [r] })) ∧
        (4 ≤ s.requests.length →
          exec (Inbound.request r).command s = .next (boundary (raiseCause .mgmtOverrun r.tag.toNat s)))

/-- A wheel event at a pair unit whose pending event is none becomes it, the rock count kept; at the detector already
pending it is a rock-back, the eighth raising DETECTOR_SUSPECT; at the other detector it completes a passage, the unit left
with no pending event and rock count 0 (R31, R32, R33, R34, R39). A passage carries its pair, detectors, sense and times; the
transit time modulo 2^32 and signed, at least 1; with a Geometry Record the pace of the pair's spacing and the speed of
f_scan, each rounded half up and clamped, and with none neither (R34 to R37). -/
def Obligations.PairUnitsJoinEventsIntoPassages : Prop :=
  (∀ (s : State) (x : Detector) (t : T16),
      ((s.pairUnit x.pair).pending = none →
          takeEvent x t s =
            setPairUnit x.pair { pending := some (x, t), rockCount := (s.pairUnit x.pair).rockCount } s) ∧
        ∀ ty : T16,
          ((s.pairUnit x.pair).pending = some (x, ty) →
            ((s.pairUnit x.pair).rockCount < 7 →
              takeEvent x t s =
                setPairUnit x.pair { pending := none, rockCount := (s.pairUnit x.pair).rockCount + 1 } s) ∧
            ((s.pairUnit x.pair).rockCount = 7 →
              takeEvent x t s =
                raiseCause .detectorSuspect x.code (setPairUnit x.pair { pending := none, rockCount := 0 } s))) ∧
          ∀ y : Detector,
            y ≠ x → (s.pairUnit x.pair).pending = some (y, ty) →
              takeEvent x t s =
                takePassage (makePassage s.cal.geometry y ty x t)
                  (setPairUnit x.pair { pending := none, rockCount := 0 } s)) ∧
    ∀ (geometry : Option GeometryRecord) (y x : Detector) (ty tx : T16) (p : Passage),
      p = makePassage geometry y ty x tx →
        p.pair = x.pair ∧ p.first = y ∧ p.second = x ∧ p.firstTime = ty ∧ p.secondTime = tx ∧
          (p.sense = .eastward ↔ y = .w1 ∨ y = .e1) ∧ 1 ≤ p.transit ∧
          (∀ d : Nat, d < 2147483648 → tx.toNat % 4294967296 = (ty.toNat + d) % 4294967296 → p.transit = max 1 d) ∧
          (∀ d : Nat, d ≤ 2147483648 → ty.toNat % 4294967296 = (tx.toNat + d) % 4294967296 → p.transit = 1) ∧
          (geometry = none → p.pace = none ∧ p.speed = none) ∧
          ∀ g : GeometryRecord,
            geometry = some g →
              ∃ P v d : Nat,
                p.pace = some P ∧ p.speed = some v ∧ (d = if x.pair = .west then g.dW else g.dE) ∧
                  P = max 1 (min 16777215 ((4000 * p.transit + d) / (2 * d))) ∧
                  v = min 65535 ((2304 * g.fScan + P) / (2 * P))

/-! ## Pace Tracker -/

/-- An entry pace taken: the history holds the newest five; dev against the newest before decides the runs, each held at 15;
the lock state follows from the runs, and the running pace is the rounded mean of the four newest paces while at least
four are held (R40 to R44). P_u is the running pace exactly while the lock is FINE (R45), and a lock reset leaves the
initial state (R46). -/
def Obligations.PaceTrackerTakesAnEntry : Prop :=
  (∀ (t : PaceTracker) (p : Nat),
      (t.take p).history = (t.history ++ [p]).drop ((t.history ++ [p]).length - 5) ∧
        (t.history = [] → (t.take p).coarse = t.coarse ∧ (t.take p).fine = t.fine) ∧
        (∀ before prev dev,
          t.history = before ++ [prev] → dev = (max p prev - min p prev) * 64 / prev →
            (dev ≤ 1 → (t.take p).coarse = min 15 (t.coarse + 1) ∧ (t.take p).fine = min 15 (t.fine + 1)) ∧
            (2 ≤ dev → dev ≤ 4 → (t.take p).coarse = min 15 (t.coarse + 1) ∧ (t.take p).fine = 0) ∧
            (5 ≤ dev → (t.take p).coarse = 0 ∧ (t.take p).fine = 0)) ∧
        ((t.take p).lock = .fine ↔ 4 ≤ (t.take p).fine) ∧
        ((t.take p).lock = .coarse ↔ (t.take p).fine ≤ 3 ∧ 2 ≤ (t.take p).coarse) ∧
        (∀ before a b c,
          t.history = before ++ [a, b, c] → (t.take p).running = some ((a + b + c + p + 2) / 4)) ∧
        (t.history.length < 3 → (t.take p).running = none) ∧
        ((t.take p).lock = .fine → ∀ q, (t.take p).running = some q → (t.take p).report p = (q, .running)) ∧
        ((t.take p).lock ≠ .fine → (t.take p).report p = (p, .own))) ∧
    ∀ s : State, lockReset s = { s with pace := { history := [], coarse := 0, fine := 0, lock := .none, running := none } }

/-! ## Train Control and Axle Tracking -/

/-- A passage in IDLE of the entry type starts a train on a READY part, all of R51 before the passage is classified; on a
NOT_READY one it leads to IGNORING with TRAIN_NOT_WEIGHED; any other order raises COUNT_MISMATCH alone. A passage in ENDING
and in IGNORING is ignored as R61 and R63 say (R47, R49 to R51, R61, R63). -/
def Obligations.PassagesOutsideARunningTrain : Prop :=
  ∀ (s : State) (p : Passage),
    (∀ d : Direction,
        s.train.state = .idle →
          (p.first = .w1 ∧ p.second = .w2 ∧ d = .eastbound) ∨ (p.first = .e2 ∧ p.second = .e1 ∧ d = .westbound) →
            (s.part = .ready →
              takePassage p s =
                classify p
                  { s with
                    pace := { history := [], coarse := 0, fine := 0, lock := .none, running := none }
                    train :=
                      { state := .running
                        ctx :=
                          some
                            { number := s.train.nextNumber, direction := d, startScan := s.rx.time, endScan := none
                              epoch := 0, stood := false, disturbed := false, endReason := none
                              ignoredBefore := s.train.ignoredBetween, passagesDuringEnding := false, entries := 0
                              backouts := 0, exits := 0, returns := 0, returnedAfterRelease := 0, unexpected := 0
                              ignored := 0, axlesDiscarded := 0, vehiclesDiscarded := 0, detailsDropped := 0
                              consistUsed := 0, consistLate := 0, consistUnused := 0, vehiclesReleased := 0
                              vehiclesWithGross := 0, grossTotal := 0, payloadTotal := 0 }
                        nextNumber := if s.train.nextNumber = 65535 then 1 else s.train.nextNumber + 1
                        quiet := some (s.rx.time + BitVec.ofNat 32 s.settings.quietTime)
                        ignoredBetween := 0 }
                    axles := { highest := 0, firstOn := 1, lastOn := 0, lowestHeld := 1, queue := [] }
                    asm := { s.asm with list := [], nextSeq := 1, firstFree := 1 }
                    notices := s.notices.raise .trainStarted s.train.nextNumber.toNat }) ∧
            (s.part = .notReady →
              takePassage p s =
                raiseCause .trainNotWeighed p.pair.code
                  { s with
                    train :=
                      { s.train with
                        state := .ignoring
                        quiet := some (s.rx.time + BitVec.ofNat 32 s.settings.quietTime)
                        ignoredBetween := s.train.ignoredBetween + 1 } })) ∧
      (s.train.state = .idle → ¬(p.first = .w1 ∧ p.second = .w2) → ¬(p.first = .e2 ∧ p.second = .e1) →
        takePassage p s = raiseCause .countMismatch p.pair.code s) ∧
      (∀ c, s.train.state = .ending → s.train.ctx = some c →
        takePassage p s =
          raiseCause .trainNotWeighed p.pair.code
            { s with
              train := { s.train with ctx := some { c with ignored := c.ignored + 1, passagesDuringEnding := true } } }) ∧
      (s.train.state = .ignoring →
        takePassage p s =
          { s with
            train :=
              { s.train with
                ignoredBetween := s.train.ignoredBetween + 1
                quiet := some (s.rx.time + BitVec.ofNat 32 s.settings.quietTime) } })

/-- A forward passage at the entry pair of a train: a new ordinal enters with its record, its spacing measured from the
record before where that is held and of the same epoch; at ordinal 4,095 or at 128 records the train ends instead and no
bound or count of entries moves; a backed-out ordinal re-enters with its record refreshed and its spacing measured again
(R52, R58, R66 to R70). The record takes the pace source and PACE_UNLOCKED as the Pace Tracker reports them (R45), and each
zone in use predicts a window with the reported pace, one decided at prediction being in the record at once and counted in
ZONE_REJECTS (R70, R90, R91, R97); then formation is considered (R130). The own pace and speed are the passage's (free where
it carries none, notes/assumptions/12.md). -/
def Obligations.EntriesExtendTheSection : Prop :=
  ∀ (s t : State) (p : Passage) (c : TrainContext),
    s.train.state = .running ∨ s.train.state = .standing → s.train.ctx = some c → s.AxlesSound →
      p.sense = c.direction.forward → p.pair = c.direction.entryPair → t = takePassage p s →
        t = { s with
              train := t.train, axles := t.axles, pace := t.pace, zones := t.zones, asm := t.asm
              counters := t.counters, notices := t.notices, west := t.west, east := t.east } ∧
        (s.axles.lastOn = s.axles.highest → s.axles.highest < 4095 → s.axles.queue.length < 128 →
          t.train =
              { s.train with
                state := .running
                ctx := some { c with entries := c.entries + 1 }
                quiet := some (s.rx.time + BitVec.ofNat 32 s.settings.quietTime) } ∧
            t.axles.highest = s.axles.highest + 1 ∧ t.axles.lastOn = s.axles.lastOn + 1 ∧
            t.axles.firstOn = s.axles.firstOn ∧ t.axles.lowestHeld = s.axles.lowestHeld ∧
            t.axles.queue.length = s.axles.queue.length + 1 ∧ t.pace = s.pace.take p.ownPace ∧
            (∀ j a, s.axles.find j = some a → ∃ w, t.axles.find j = some { a with vehicle := w }) ∧
            (∃ m : State,
              t = considerFormation m ∧
                m = { t with asm := s.asm, axles := { t.axles with queue := m.axles.queue } } ∧
                (∀ j a, s.axles.find j = some a → m.axles.find j = some a) ∧
                ∀ a, t.axles.find (s.axles.highest + 1) = some a →
                  m.axles.find (s.axles.highest + 1) = some { a with vehicle := none }) ∧
            ∃ a,
              t.axles.find (s.axles.highest + 1) = some a ∧ s.Predicts t c.direction a (t.pace.report p.ownPace).1 ∧
                s.Counts t (Counter.ofEvent .zoneRejects a.decidedRails) [] ∧
                a.paceSource = (t.pace.report p.ownPace).2 ∧
                a.flags = (if t.pace.lock = .none then AxleFlag.paceUnlocked.mask else 0) ∧
                a.north = none ∧ a.south = none ∧ a.entryTime = p.secondTime ∧ a.entryPace = p.ownPace ∧
                a.speed = p.ownSpeed ∧ a.epoch = c.epoch ∧ a.generation = 1 ∧ a.finalized = false ∧
                a.exitTime = none ∧ a.exitPace = none ∧ a.axleLoad = none ∧
                (s.axles.find s.axles.highest = none → a.spacing = none) ∧
                ∀ b,
                  s.axles.find s.axles.highest = some b →
                    a.spacing =
                      if b.epoch = c.epoch then
                        some (min 65535 (roundHalfUp (2000 * (t16Diff p.secondTime b.entryTime).toNat) p.ownPace))
                      else none) ∧
        (s.axles.lastOn = s.axles.highest → 4095 ≤ s.axles.highest ∨ 128 ≤ s.axles.queue.length →
          t =
              abortWith (if 4095 ≤ s.axles.highest then .lengthLimit else .axleOverrun)
                { s with
                  train :=
                    { s.train with
                      state := .running, quiet := some (s.rx.time + BitVec.ofNat 32 s.settings.quietTime) } } ∧
            t.train.state = .ending ∧ t.train.quiet = none ∧ t.axles.lastOn = s.axles.lastOn ∧
            t.axles.firstOn = s.axles.firstOn ∧ t.pace = s.pace ∧
            ∃ c',
              t.train.ctx = some c' ∧ c'.entries = c.entries ∧
                c'.endReason = some (if 4095 ≤ s.axles.highest then .lengthLimit else .axleOverrun)) ∧
        (s.axles.lastOn < s.axles.highest →
          t.train =
              { s.train with
                state := .running
                ctx := some { c with entries := c.entries + 1 }
                quiet := some (s.rx.time + BitVec.ofNat 32 s.settings.quietTime) } ∧
            t.axles.highest = s.axles.highest ∧ t.axles.lastOn = s.axles.lastOn + 1 ∧
            t.axles.firstOn = s.axles.firstOn ∧ t.axles.queue.length = s.axles.queue.length ∧
            t.pace = s.pace.take p.ownPace ∧
            (∀ j a, j ≠ s.axles.lastOn + 1 → s.axles.find j = some a →
              ∃ w, t.axles.find j = some { a with vehicle := w }) ∧
            (∃ m : State,
              t = considerFormation m ∧
                m = { t with asm := s.asm, axles := { t.axles with queue := m.axles.queue } } ∧
                ∀ j a, s.axles.find j = some a → ∃ b, m.axles.find j = some b ∧ b.vehicle = a.vehicle) ∧
            (s.axles.find (s.axles.lastOn + 1) = none → t.zones = s.zones ∧ s.Counts t (fun _ => 0) []) ∧
            ∀ a,
              s.axles.find (s.axles.lastOn + 1) = some a →
                ∃ b,
                  t.axles.find (s.axles.lastOn + 1) = some b ∧
                    s.Predicts t c.direction b (t.pace.report p.ownPace).1 ∧
                    s.Counts t (Counter.ofEvent .zoneRejects b.decidedRails) [] ∧
                    b.paceSource = (t.pace.report p.ownPace).2 ∧
                    b.flags =
                      (AxleFlag.reweighed.mask |||
                        if t.pace.lock = .none then AxleFlag.paceUnlocked.mask else 0) ∧
                    b.entryTime = p.secondTime ∧
                    b.entryPace = p.ownPace ∧ b.speed = p.ownSpeed ∧ b.epoch = c.epoch ∧
                    b.generation = (if a.generation = 65535 then 1 else a.generation + 1) ∧ b.finalized = false ∧
                    b.exitTime = none ∧ b.exitPace = none ∧ b.north = none ∧ b.south = none ∧ b.axleLoad = none ∧
                    (s.axles.find s.axles.lastOn = none → b.spacing = none) ∧
                    ∀ d,
                      s.axles.find s.axles.lastOn = some d →
                        b.spacing =
                          if d.epoch = c.epoch then
                            some (min 65535 (roundHalfUp (2000 * (t16Diff p.secondTime d.entryTime).toNat) p.ownPace))
                          else none)

/-- A reverse passage: the epoch advances, DISTURBED is set on the train and on every axle on the section, the lock is reset
and every window goes, each undecided rail of one giving its record MOTION under R76 and ZONE_REJECTS an occurrence, before
the passage is carried out (R46, R54, R97, R99). At the entry pair with axles on the section the last axle backs out, its
estimates are undecided again, and the newest vehicle, if it is FORMED and ends at the ordinal before, is dissolved: it leaves
the list, its sequence number and its axles are taken back; no other vehicle is (R71, R72, R141); then formation is considered
(R130). At the exit pair with an axle cleared the newest of them returns, its record kept and DISTURBED, and the vehicle it is
assigned to, if COMPLETE, is FORMED again, its wait cancelled, a resolution PRESENT or ABSENT kept (R75, R140, R151). -/
def Obligations.ReversePassagesTakeAxlesBack : Prop :=
  ∀ (s t : State) (p : Passage) (c : TrainContext),
    s.train.state = .running ∨ s.train.state = .standing → s.train.ctx = some c →
      p.sense ≠ c.direction.forward → t = takePassage p s →
        t.train.state = .running ∧ t.train.quiet = some (s.rx.time + BitVec.ofNat 32 s.settings.quietTime) ∧
          t.pace = { history := [], coarse := 0, fine := 0, lock := .none, running := none } ∧
          (∀ z : Fin 4, t.zones[z] = { s.zones[z] with windows := [] }) ∧ t.axles.highest = s.axles.highest ∧
          t.axles.lowestHeld = s.axles.lowestHeld ∧ t.axles.queue.length = s.axles.queue.length ∧
          (∀ j a, s.axles.find j = some a →
            ∃ b, t.axles.find j = some b ∧
              b = { a with flags := b.flags, estimates := b.estimates, vehicle := b.vehicle } ∧
              b.flags =
                (if (s.axles.firstOn ≤ j ∧ j ≤ s.axles.lastOn) ∨
                    (p.pair ≠ c.direction.entryPair ∧ 1 < s.axles.firstOn ∧ j + 1 = s.axles.firstOn) then
                  a.flags ||| AxleFlag.disturbed.mask
                else a.flags) ∧
              (¬(p.pair = c.direction.entryPair ∧ s.axles.firstOn ≤ s.axles.lastOn ∧ j = s.axles.lastOn) →
                s.CancelledEstimates a b)) ∧
          s.Counts t (Counter.ofEvent .zoneRejects s.undecidedRails) [.countMismatch] ∧
          t = { s with
                train := t.train, axles := t.axles, pace := t.pace, zones := t.zones, asm := t.asm
                counters := t.counters, notices := t.notices } ∧
          (p.pair = c.direction.entryPair → s.axles.firstOn ≤ s.axles.lastOn →
            t.train.ctx = some { c with disturbed := true, epoch := c.epoch + 1, backouts := c.backouts + 1 } ∧
              t.axles.lastOn = s.axles.lastOn - 1 ∧ t.axles.firstOn = s.axles.firstOn ∧
              t.notices.entry .countMismatch = s.notices.entry .countMismatch ∧
              (∃ (m : State) (v : Option Vehicle),
                t = considerFormation m ∧
                  m = { t with asm := m.asm, axles := { t.axles with queue := m.axles.queue } } ∧
                  (∀ x,
                    v = some x ↔
                      s.asm.list.getLast? = some x ∧ x.isComplete = false ∧
                        x.first + x.count - 1 = s.axles.lastOn - 1) ∧
                  m.asm =
                    (match v with
                      | some x =>
                        { s.asm with
                          list := s.asm.list.dropLast, nextSeq := s.asm.nextSeq - 1, firstFree := x.first }
                      | none => s.asm) ∧
                  ∀ j a, s.axles.find j = some a →
                    ∃ b, m.axles.find j = some b ∧
                      b.vehicle =
                        match v with
                        | some x => if x.first ≤ j ∧ j ≤ x.first + x.count - 1 then none else a.vehicle
                        | none => a.vehicle) ∧
              ∀ a,
                s.axles.find s.axles.lastOn = some a →
                  ∃ b,
                    t.axles.find s.axles.lastOn = some b ∧ (∀ ch : Fin 8, b.estimates[ch] = none) ∧
                      hasAxleFlag b.flags .disturbed = true ∧ b.entryTime = a.entryTime ∧
                      b.spacing = a.spacing ∧ b.generation = a.generation) ∧
          (p.pair ≠ c.direction.entryPair → 1 < s.axles.firstOn →
            t.axles.firstOn = s.axles.firstOn - 1 ∧ t.axles.lastOn = s.axles.lastOn ∧
              t.notices.entry .countMismatch = s.notices.entry .countMismatch ∧
              (∀ j a, s.axles.find j = some a → ∃ b, t.axles.find j = some b ∧ b.vehicle = a.vehicle) ∧
              (((s.axles.find (s.axles.firstOn - 1)).bind AxleRecord.vehicle) = none → t.asm = s.asm) ∧
              (∀ q, ((s.axles.find (s.axles.firstOn - 1)).bind AxleRecord.vehicle) = some q →
                t.asm =
                  { s.asm with
                    list :=
                      s.asm.list.map fun v =>
                        if v.sequence = q ∧ v.isComplete = true then
                          { v with
                            state := .formed, resolution := if v.isWaiting then .unresolved else v.resolution }
                        else v }) ∧
              (s.axles.find (s.axles.firstOn - 1) = none →
                t.train.ctx =
                  some
                    { c with
                      disturbed := true, epoch := c.epoch + 1, returns := c.returns + 1
                      returnedAfterRelease := c.returnedAfterRelease + 1 }) ∧
              ∀ a,
                s.axles.find (s.axles.firstOn - 1) = some a →
                  t.train.ctx = some { c with disturbed := true, epoch := c.epoch + 1, returns := c.returns + 1 } ∧
                    ∃ b,
                      t.axles.find (s.axles.firstOn - 1) = some b ∧ hasAxleFlag b.flags .disturbed = true ∧
                        b.finalized = a.finalized ∧ b.axleLoad = a.axleLoad ∧ b.exitTime = a.exitTime)

/-- A forward passage at the exit pair with axles on the section: the first of them clears, and its record, where one is held
that is not finalized, takes the exit time and pace, TIMING for each undecided estimate, what the Load Combiner makes of it
(LoadsAreCombinedFromTheEstimates), CAL_PENDING where that is set, and the finalized marker; its windows are withdrawn, each
rail set to TIMING is an occurrence of ZONE_REJECTS, an axle load one of AXLES_WEIGHED, a speed in its band one of a counter
of AXLES_IN_BAND, and with axle_detail on a detail of the record is queued, or dropped and counted where 32 are held (R80,
R100, R156, R175); a finalized record stays as it is (R73, R74). The clearance completes the FORMED vehicle that the axle
ends (R136; completion is described by IdentitiesAreAppendedOrTimeOut). -/
def Obligations.ExitsFinalizeTheFirstAxle : Prop :=
  ∀ (s t : State) (p : Passage) (c : TrainContext),
    s.train.state = .running ∨ s.train.state = .standing → s.train.ctx = some c →
      p.sense = c.direction.forward → p.pair ≠ c.direction.entryPair → s.axles.firstOn ≤ s.axles.lastOn →
        t = takePassage p s →
          t.train.state = .running ∧ t.axles.firstOn = s.axles.firstOn + 1 ∧ t.axles.lastOn = s.axles.lastOn ∧
            t.axles.highest = s.axles.highest ∧ t.axles.lowestHeld = s.axles.lowestHeld ∧ t.pace = s.pace ∧
            (∃ c', t.train.ctx = some { c with exits := c.exits + 1, detailsDropped := c' }) ∧
            ((s.axles.find s.axles.firstOn = none ∨ ∃ a, s.axles.find s.axles.firstOn = some a ∧ a.finalized = true) →
              t.train.ctx = some { c with exits := c.exits + 1 } ∧ t.zones = s.zones ∧ t.link = s.link ∧
                t.counters = s.counters ∧ t.notices = s.notices) ∧
            ((s.axles.find s.axles.firstOn = none ∨
                ∀ v ∈ s.asm.list, v.isComplete = true ∨ v.first + v.count - 1 ≠ s.axles.firstOn) →
              t.asm = s.asm) ∧
            (∀ front v back,
              s.axles.find s.axles.firstOn ≠ none → s.asm.list = front ++ v :: back →
                (∀ y ∈ front, y.isComplete = true ∨ y.first + y.count - 1 ≠ s.axles.firstOn) →
                  v.isComplete = false → v.first + v.count - 1 = s.axles.firstOn →
                    t.asm = (completeVehicle v.sequence { s with axles := t.axles, train := t.train }).asm) ∧
            (∀ j, j ≠ s.axles.firstOn → t.axles.find j = s.axles.find j) ∧
            (∀ z : Fin 4, t.zones[z] = { s.zones[z] with windows := t.zones[z].windows }) ∧
            t = { s with
                  train := t.train, axles := t.axles, zones := t.zones, asm := t.asm, counters := t.counters
                  notices := t.notices, link := t.link } ∧
            ∀ a,
              s.axles.find s.axles.firstOn = some a →
                (a.finalized = true → t.axles.find s.axles.firstOn = some a) ∧
                (a.finalized = false →
                  ∃ (e : Vector (Option Estimate) 8) (b d : AxleRecord),
                    (∀ ch : Fin 8,
                      e[ch] =
                        if ch ∈ s.cal.channelsInUse ∧ a.estimates[ch] = none then
                          some { condition := .timing, mass := none }
                        else a.estimates[ch]) ∧
                      b =
                        AxleRecord.combine s.cal.limits s.cal.curve s.cal.zonesInUse p.ownPace
                          { a with exitTime := some p.secondTime, exitPace := some p.ownPace, estimates := e } ∧
                      d =
                        { b with
                          finalized := true
                          flags := if s.cal.calPending then b.flags ||| AxleFlag.calPending.mask else b.flags } ∧
                      t.axles.find s.axles.firstOn = some d ∧
                      (∀ z : Fin 4,
                        t.zones[z].windows =
                          s.zones[z].windows.filter fun w =>
                            w.ordinal ≠ s.axles.firstOn ∨ w.generation ≠ a.generation) ∧
                      s.Counts t
                        (fun k =>
                          k.ofEvent .zoneRejects
                              (s.cal.channelsInUse.filter fun ch => a.estimates[ch] = none).length +
                            k.ofEvent .axlesWeighed d.axleLoad.isSome.toNat +
                            k.ofEvent .axlesInBand
                              (if k.selection.low ≤ d.speed ∧ d.speed ≤ k.selection.high then 1 else 0))
                        [] ∧
                      (s.settings.axleDetail = false ∨ 32 ≤ s.link.details.length → t.link = s.link) ∧
                      (s.settings.axleDetail = true → s.link.details.length < 32 →
                        t.link =
                          { s.link with
                            details :=
                              s.link.details ++
                                [{ train := c.number, ordinal := s.axles.firstOn, exitTime := p.secondTime
                                   entryPace := d.entryPace, exitPace := p.ownPace, paceSource := d.paceSource
                                   spacing := d.spacing
                                   estimates := s.cal.channelsInUse.filterMap fun ch => d.estimates[ch]
                                   north := d.north, south := d.south, axleLoad := d.axleLoad, flags := d.flags }] }) ∧
                      t.train.ctx =
                        some
                          { c with
                            exits := c.exits + 1
                            detailsDropped :=
                              c.detailsDropped +
                                if s.settings.axleDetail = true ∧ 32 ≤ s.link.details.length then 1 else 0 })

/-- An unexpected passage, at the exit pair with the section empty or reverse with nothing to take back: the count and one
COUNT_MISMATCH cause, and no bound, no count of R48 besides, no record; if reverse it still has the motion effects, DISTURBED
on every axle on the section and MOTION for the undecided rails of the windows among them (R52, R53, R54, R99). -/
def Obligations.UnexpectedPassagesAreCounted : Prop :=
  ∀ (s t : State) (p : Passage) (c : TrainContext),
    s.train.state = .running ∨ s.train.state = .standing → s.train.ctx = some c → t = takePassage p s →
      (p.sense = c.direction.forward → p.pair ≠ c.direction.entryPair → s.axles.lastOn < s.axles.firstOn →
        t =
          { s with
            train :=
              { s.train with
                state := .running
                ctx := some { c with unexpected := c.unexpected + 1 }
                quiet := some (s.rx.time + BitVec.ofNat 32 s.settings.quietTime) }
            notices := s.notices.raise .countMismatch p.pair.code }) ∧
      (p.sense ≠ c.direction.forward →
        (p.pair = c.direction.entryPair ∧ s.axles.lastOn < s.axles.firstOn) ∨
            (p.pair ≠ c.direction.entryPair ∧ s.axles.firstOn ≤ 1) →
          t.train.ctx = some { c with disturbed := true, epoch := c.epoch + 1, unexpected := c.unexpected + 1 } ∧
            t.notices.entry .countMismatch =
              (s.notices.entry .countMismatch).after (s.notices.level .countMismatch) [p.pair.code] ∧
            s.Counts t (Counter.ofEvent .zoneRejects s.undecidedRails) [.countMismatch] ∧
            (∀ z : Fin 4, t.zones[z] = { s.zones[z] with windows := [] }) ∧
            t.axles = { s.axles with queue := t.axles.queue } ∧
            (∀ j a, s.axles.find j = some a →
              ∃ b, t.axles.find j = some b ∧ b = { a with flags := b.flags, estimates := b.estimates } ∧
                s.CancelledEstimates a b ∧
                b.flags =
                  if s.axles.firstOn ≤ j ∧ j ≤ s.axles.lastOn then a.flags ||| AxleFlag.disturbed.mask
                  else a.flags) ∧
            t = { s with
                  train := t.train, axles := t.axles, pace := t.pace, zones := t.zones, counters := t.counters
                  notices := t.notices })

/-- QUIET_TIMER_EXPIRY where it takes place (R55): RUNNING with axles on the section is a standstill, every window going with
MOTION for its undecided rails and every axle on the section DISTURBED (R56, R97, R99); STANDING only
restarts the timer; IGNORING goes to IDLE with the pending events cleared, the rock counts kept (R38, R63). With the timer
stopped or not yet due nothing happens (notes/assumptions/1.md, 20.md). -/
def Obligations.QuietTimerExpiries : Prop :=
  ∀ s : State,
    (s.train.quiet = none → exec .quietTimerExpiry s = .next s) ∧
      ∀ x : Scan,
        s.train.quiet = some x →
          ((s.rx.time - x).toInt < 0 → exec .quietTimerExpiry s = .next s) ∧
          (0 ≤ (s.rx.time - x).toInt →
            (∀ c, s.train.state = .running → s.train.ctx = some c → s.axles.firstOn ≤ s.axles.lastOn →
              ∃ t,
                exec .quietTimerExpiry s = .next (boundary t) ∧ t.train.state = .standing ∧
                  t.train.ctx = some { c with stood := true, epoch := c.epoch + 1 } ∧
                  t.train.quiet = some (s.rx.time + BitVec.ofNat 32 s.settings.quietTime) ∧
                  t.pace = { history := [], coarse := 0, fine := 0, lock := .none, running := none } ∧
                  (∀ z : Fin 4, t.zones[z] = { s.zones[z] with windows := [] }) ∧
                  t.axles = { s.axles with queue := t.axles.queue } ∧
                  (∀ j a, s.axles.find j = some a →
                    ∃ b, t.axles.find j = some b ∧ b = { a with flags := b.flags, estimates := b.estimates } ∧
                      s.CancelledEstimates a b ∧
                      b.flags =
                        if s.axles.firstOn ≤ j ∧ j ≤ s.axles.lastOn then a.flags ||| AxleFlag.disturbed.mask
                        else a.flags) ∧
                  s.Counts t (Counter.ofEvent .zoneRejects s.undecidedRails) [] ∧
                  t = { s with
                        train := t.train, axles := t.axles, pace := t.pace, zones := t.zones
                        counters := t.counters, notices := t.notices } ∧
                  ∀ a ∈ t.axles.queue,
                    s.axles.firstOn ≤ a.ordinal → a.ordinal ≤ s.axles.lastOn →
                      hasAxleFlag a.flags .disturbed = true) ∧
            (s.train.state = .standing → s.axles.firstOn ≤ s.axles.lastOn →
              exec .quietTimerExpiry s =
                .next
                  (boundary
                    { s with
                      train := { s.train with quiet := some (s.rx.time + BitVec.ofNat 32 s.settings.quietTime) } })) ∧
            (s.train.state = .ignoring →
              exec .quietTimerExpiry s =
                .next
                  (boundary
                    { s with
                      train := { s.train with state := .idle, quiet := none }
                      west := { s.west with pending := none }
                      east := { s.east with pending := none } })))

/-- An expiry of the quiet timer in RUNNING with the section empty ends the train with end reason QUIET and no TRAIN_ABORTED
cause: ENDING with T as the end scan, the timer stopped, the pending events cleared, the Window Lists empty, and no record
left above last_on, each one removed counted, highest lowered to last_on, or to lowest_held − 1 where that is higher (R57, R59,
R60, R79). Every waiting identity is resolved (R152), and the Assembler then forms the axles that remain by its end-of-train
rule, each vehicle COMPLETE and resolved at once (R133, R144, R149). A vehicle already in the list stays in it
(notes/assumptions/23.md). -/
def Obligations.QuietExpiryEndsTheTrain : Prop :=
  ∀ (s : State) (c : TrainContext),
    s.quietDue = true → s.train.state = .running → s.train.ctx = some c → s.axles.lastOn < s.axles.firstOn →
      ∃ t,
        exec .quietTimerExpiry s = .next (boundary t) ∧ t.train.state = .ending ∧ t.train.quiet = none ∧
          t.train.ctx =
            some
              { c with
                endReason := some .quiet, endScan := some s.rx.time
                axlesDiscarded :=
                  c.axlesDiscarded +
                    BitVec.ofNat 32 (s.axles.queue.filter fun a => decide (s.axles.lastOn < a.ordinal)).length } ∧
          t.notices = s.notices ∧ t.west = { s.west with pending := none } ∧
          t.east = { s.east with pending := none } ∧
          (∀ z : Fin 4, t.zones[z] = { s.zones[z] with windows := [] }) ∧
          (∀ a ∈ t.axles.queue, a.ordinal ≤ s.axles.lastOn) ∧ t.axles.firstOn = s.axles.firstOn ∧
          t.axles.lastOn = s.axles.lastOn ∧ t.axles.lowestHeld = s.axles.lowestHeld ∧
          t.axles.highest = min s.axles.highest (max s.axles.lastOn (s.axles.lowestHeld - 1)) ∧
          t.asm.types = s.asm.types ∧
          (∃ (m : State) (kept : List Vehicle),
            t = considerFormation m ∧ kept = (s.asm.list.map (Vehicle.resolveAtEnding s.consist)) ∧
              m =
                { t with
                  asm := { s.asm with list := kept }
                  axles := { t.axles with queue := s.axles.queue.filter fun a => a.ordinal ≤ s.axles.lastOn } } ∧
              (s.VehiclesOrdered →
                ∃ formed, t.asm.list = kept ++ formed ∧ ∀ v ∈ formed, v.isComplete = true ∧ v.isResolved = true)) ∧
          t = { s with
                train := t.train, west := t.west, east := t.east, zones := t.zones, axles := t.axles, asm := t.asm }

/-- ABORT TRAIN: OK in RUNNING and STANDING, the train going to ENDING with end reason REQUEST; NO_TRAIN in any other state;
MALFORMED with a payload, in every state (R58). An abort leaves the COMPLETE vehicles and their axles' records alone,
counts every FORMED vehicle and every record removed: those above the last ordinal of the newest COMPLETE vehicle, or above
lowest_held − 1 where there is none, to which highest is lowered; and it resolves every waiting identity, PRESENT where the
list holds the position, else ABSENT with ID_MISSING (R59, R60, R79, R143, R152);
next_seq and the first unassigned ordinal stand (notes/assumptions/18.md). -/
def Obligations.AbortsKeepCompleteVehiclesOnly : Prop :=
  (∀ (s : State) (r : Request) (rest : List Request),
      s.CanExecute r rest → r.code = codeAbortTrain →
        (r.payload ≠ [] → exec .abortTrain s = .next (boundary (s.answered r rest .malformed []))) ∧
        (r.payload = [] →
          (s.train.state = .running ∨ s.train.state = .standing →
            exec .abortTrain s = .next (boundary ((abortWith .request s).answered r rest .ok []))) ∧
          (s.train.state ≠ .running → s.train.state ≠ .standing →
            exec .abortTrain s = .next (boundary (s.answered r rest .noTrain []))))) ∧
    ∀ (s t : State) (reason : EndReason) (c : TrainContext) (kept : Nat),
      reason ≠ .quiet → s.train.ctx = some c → t = abortWith reason s →
        (∀ v, (s.asm.list.filter Vehicle.isComplete).getLast? = some v → kept = v.first + v.count - 1) →
        ((s.asm.list.filter Vehicle.isComplete) = [] → kept = s.axles.lowestHeld - 1) →
        t.train.state = .ending ∧ t.train.quiet = none ∧ t.notices = s.notices.raise .trainAborted reason.code ∧
          t.west = { s.west with pending := none } ∧ t.east = { s.east with pending := none } ∧
          (∀ z : Fin 4, t.zones[z].windows = []) ∧
          t.asm.list = (s.asm.list.filter Vehicle.isComplete).map (Vehicle.resolveAtEnding s.consist) ∧
          (∀ v ∈ t.asm.list, v.isComplete = true ∧ v.isWaiting = false) ∧
          t.axles.queue = (s.axles.queue.filter fun a => a.ordinal ≤ kept) ∧
          t.axles.highest = min s.axles.highest (max kept (s.axles.lowestHeld - 1)) ∧
          t.train.ctx =
            some
              { c with
                endReason := some reason, endScan := some s.rx.time
                axlesDiscarded := c.axlesDiscarded + BitVec.ofNat 32 (s.axles.queue.length - t.axles.queue.length)
                vehiclesDiscarded :=
                  c.vehiclesDiscarded + BitVec.ofNat 32 (s.asm.list.length - t.asm.list.length) } ∧
          t = { s with
                train := t.train, notices := t.notices, west := t.west, east := t.east, zones := t.zones
                asm := { s.asm with list := t.asm.list }
                axles := { s.axles with queue := t.axles.queue, highest := t.axles.highest } }

/-! ## Zone Measurement and Load Arithmetic -/

/-- A full block of 64 scans: within zero_range of zero_cal the baseline moves by an eighth of the difference and the zero
fault clears, otherwise it is kept and the fault set; the block is emptied. Repeated passing blocks of one mean D bring
the baseline to D − 3 .. D + 4, where it rests (R85). A scan that does not qualify empties the partial block (R84). -/
def Obligations.BaselinesFollowTheirBlocks : Prop :=
  (∀ (rec : ChannelRecord) (c : Channel) (covered : Bool) (a : Sample),
      (c.presence = .occupied ∨ a.status ≠ .ok ∨ covered = true →
        c.track rec covered a = ({ c with blockCount := 0, blockSum := 0 }, false)) ∧
      (c.presence = .empty → a.status = .ok → covered = false →
        (c.blockCount < 63 →
          c.track rec covered a =
            ({ c with blockCount := c.blockCount + 1, blockSum := c.blockSum + a.value }, false)) ∧
        ∀ d : Int,
          c.blockCount = 63 → d = (c.blockSum + a.value + 4) / 8 →
            ((d - 8 * rec.zeroCal).natAbs ≤ 8 * rec.zeroRange →
              c.track rec covered a =
                ({ c with
                    baseline := c.baseline + (d - c.baseline + 4) / 8, zeroFault := false, blockCount := 0
                    blockSum := 0 },
                  false)) ∧
            (8 * rec.zeroRange < (d - 8 * rec.zeroCal).natAbs →
              c.track rec covered a = ({ c with zeroFault := true, blockCount := 0, blockSum := 0 }, true)))) ∧
    ∀ (b d : Int),
      ∃ n : Nat, ∀ m : Nat, n ≤ m →
        d - 3 ≤ (fun x : Int => x + (d - x + 4) / 8)^[m] b ∧ (fun x : Int => x + (d - x + 4) / 8)^[m] b ≤ d + 4 ∧
          (fun x : Int => x + (d - x + 4) / 8)^[m + 1] b = (fun x : Int => x + (d - x + 4) / 8)^[m] b

/-- A sample of status OK rises when 8x − B8 > 8h and falls when 8x − B8 < 8 × floor(h/2) (R86). In EMPTY `n_on` rising
samples in a row, the first of them at scan t, make the channel OCCUPIED at the last and report ON of time t; in OCCUPIED
`n_off` falling ones make it EMPTY and report OFF; a sample that does not, or of another status, empties the run
(R87, R88). -/
def Obligations.PresenceNeedsAFullRun : Prop :=
  ∀ (nOn nOff : Nat) (rec : ChannelRecord) (c : Channel) (t : Scan) (xs : List Sample),
    (∀ a : Sample,
        (a.status ≠ .ok → c.detect nOn nOff rec t a = ({ c with run := none }, none)) ∧
        (a.status = .ok → c.presence = .empty → 8 * a.value - c.baseline ≤ 8 * (rec.threshold : Int) →
          c.detect nOn nOff rec t a = ({ c with run := none }, none)) ∧
        (a.status = .ok → c.presence = .occupied →
          8 * ((rec.threshold / 2 : Nat) : Int) ≤ 8 * a.value - c.baseline →
            c.detect nOn nOff rec t a = ({ c with run := none }, none))) ∧
      (c.presence = .empty → c.run = none →
        (∀ a ∈ xs, a.status = .ok ∧ 8 * (rec.threshold : Int) < 8 * a.value - c.baseline) →
          1 ≤ xs.length →
          (xs.length < nOn →
            (xs.zipIdx.foldl (fun c a => (c.detect nOn nOff rec (t + BitVec.ofNat 32 a.2) a.1).1) c) =
              { c with run := some (xs.length, t) }) ∧
          (xs.length = nOn → ∀ a, xs.getLast? = some a →
            (xs.dropLast.zipIdx.foldl (fun c a => (c.detect nOn nOff rec (t + BitVec.ofNat 32 a.2) a.1).1) c).detect nOn
                nOff rec (t + BitVec.ofNat 32 (nOn - 1)) a =
              ({ c with presence := .occupied, run := none }, some (.on t)))) ∧
      (c.presence = .occupied → c.run = none →
        (∀ a ∈ xs, a.status = .ok ∧ 8 * a.value - c.baseline < 8 * ((rec.threshold / 2 : Nat) : Int)) →
          1 ≤ xs.length →
          (xs.length < nOff →
            (xs.zipIdx.foldl (fun c a => (c.detect nOn nOff rec (t + BitVec.ofNat 32 a.2) a.1).1) c) =
              { c with run := some (xs.length, t) }) ∧
          (xs.length = nOff → ∀ a, xs.getLast? = some a →
            (xs.dropLast.zipIdx.foldl (fun c a => (c.detect nOn nOff rec (t + BitVec.ofNat 32 a.2) a.1).1) c).detect nOn
                nOff rec (t + BitVec.ofNat 32 (nOff - 1)) a =
              ({ c with presence := .empty, run := none }, some (.off t))))

/-- The window of an entry, in numbers that do not wrap: its edges, trimmed start and end, and rounded edges are those of the
table of R90, from the distances of R4 for the direction; it starts PENDING with nothing in it. The condition given at
prediction is the first of R91 that holds. -/
def Obligations.WindowsAreThoseOfTheTable : Prop :=
  (∀ (g : GeometryRecord) (d : Direction) (z : ZoneSpan) (ordinal generation trimEighths pace : Nat) (tRef : T16)
      (tIn tOut trim : Nat) (w : Window),
      z.a ≤ z.b → z.b ≤ g.cE → trimEighths ≤ 3 →
        tIn = tRef.toNat + (2 * ((if d = .eastbound then z.a else g.cE - z.b) * pace) + 2000) / 4000 →
          tOut = tRef.toNat + (2 * ((if d = .eastbound then z.b else g.cE - z.a) * pace) + 2000) / 4000 →
            trim = (tOut - tIn) * trimEighths / 8 → tOut + 16 < 68719476736 → tOut - tIn < 2147483648 →
              w = zoneWindow g d trimEighths z ordinal generation tRef pace →
                w.ordinal = ordinal ∧ w.generation = generation ∧ w.start.toNat = (tIn + trim + 15) / 16 ∧
                  w.stop.toNat = (tOut - trim) / 16 ∧ w.inScan.toNat = (tIn + 8) / 16 ∧
                  w.outScan.toNat = (tOut + 8) / 16 ∧ w.state = .pending ∧ w.gap = false ∧
                  w.north =
                    { sum := 0, count := 0, fault := false, onSeen := false, offSeen := false, closeBase := none
                      decided := none } ∧
                  w.south = w.north) ∧
    ∀ (time : Scan) (nMin tol : Nat) (list : List Window) (w : Window),
      (0 ≤ (time - w.start).toInt → predictionCondition time nMin tol list w = some .missed) ∧
      ((time - w.start).toInt < 0 →
        ((w.stop - w.start).toInt + 1 < (nMin : Int) → predictionCondition time nMin tol list w = some .short) ∧
        ((nMin : Int) ≤ (w.stop - w.start).toInt + 1 →
          (48 ≤ list.length → predictionCondition time nMin tol list w = some .missed) ∧
          (list.length < 48 →
            (list = [] → predictionCondition time nMin tol list w = none) ∧
            ∀ front last,
              list = front ++ [last] →
                (0 ≤ (last.outScan + BitVec.ofNat 32 tol - w.start).toInt →
                  predictionCondition time nMin tol list w = some .shared) ∧
                ((last.outScan + BitVec.ofNat 32 tol - w.start).toInt < 0 →
                  predictionCondition time nMin tol list w = none))))

/-- A rail is decided with the first condition of R97 that applies; for SATURATED and VALID the mean m8 of the window sum
S8 = 8 × Σx − n × B8 and the mass w = m8 × G / 524,288 are each rounded half away from zero, a VALID rail carries w, and a
SATURATED one says on which side it fell (R97, R102, R103, R104). A scan at a Zone Unit, in the order of R83: a gap marks each
window whose [s, e] holds a missing scan and empties the partial block and run of each active channel (R93); a PENDING window
whose s has come opens, an OPEN one past its e closes with each rail's baseline, one that holds the scan takes its samples
(R92); the presence events mark the undecided rails of the windows whose bands hold them, an ON that no ON band holds is a
phantom (R94, R95, R96); a rail with its OFF seen is decided once its window has closed, and every rail still undecided when
the deadline passes, at which the window leaves (R96, R97, R98); then the active channels track their zero (R84). A channel
that is not active keeps its state (R82). -/
def Obligations.WheelMassDecidesTheRail : Prop :=
  (∀ (k : ZoneTables) (t : Scan) (missing : Option (Scan × Scan)) (n s : Sample) (u : ZoneUnit) (y : ZoneScan)
      (a : Rail → Sample) (cut : Channel → Channel) (ev : Rail → Option PresenceEvent),
    y = u.scan k t missing n s → a .north = n → a .south = s →
      (∀ c, cut c = if missing = none then c else { c with blockCount := 0, blockSum := 0, run := none }) →
      (∀ r, (k.record r = none → ev r = none) ∧
        ∀ rec, k.record r = some rec → ev r = ((cut (u.channel r)).detect k.nOn k.nOff rec t (a r)).2) →
        (∀ r,
          (k.record r = none → y.unit.channel r = u.channel r ∧ r ∉ y.failing) ∧
            ∀ rec c,
              k.record r = some rec →
                c =
                    ((cut (u.channel r)).detect k.nOn k.nOff rec t (a r)).1.track rec
                      (u.windows.any fun w => w.covers k.tol t) (a r) →
                  y.unit.channel r = c.1 ∧ (r ∈ y.failing ↔ c.2 = true)) ∧
        y.failing.Sublist [.north, .south] ∧ y.phantoms.Sublist [.north, .south] ∧
        (∀ r, r ∈ y.phantoms ↔ ∃ e, ev r = some (.on e) ∧ ∀ w ∈ u.windows, w.inOnBand k.tol e = false) ∧
        ∃ (f : Window → Option Window) (now late : Window → List Handed),
          y.unit.windows = u.windows.filterMap f ∧ y.handed = u.windows.flatMap now ++ u.windows.flatMap late ∧
            ∀ (w v : Window) (gap opened closes takes : Bool) (onSeen offSeen settles : Rail → Bool)
              (x : Rail → RailWindow) (h : Rail → Handed),
              (gap = true ↔ w.gap = true ∨
                ∃ m0 m1, missing = some (m0, m1) ∧ 0 ≤ (w.stop - w.start).toInt ∧ 0 ≤ (m1 - w.start).toInt ∧
                  0 ≤ (w.stop - m0).toInt) →
              (opened = true ↔ w.state = .opened ∨ (w.state = .pending ∧ 0 ≤ (t - w.start).toInt)) →
              (closes = true ↔ opened = true ∧ 0 < (t - w.stop).toInt) →
              (takes = true ↔
                opened = true ∧ closes = false ∧ 0 ≤ (t - w.start).toInt ∧ 0 ≤ (w.stop - t).toInt) →
              (∀ r, onSeen r = true ↔
                (w.rail r).onSeen = true ∨
                  (w.rail r).decided = none ∧ ∃ e, ev r = some (.on e) ∧ w.inOnBand k.tol e = true) →
              (∀ r, offSeen r = true ↔
                (w.rail r).offSeen = true ∨
                  (w.rail r).decided = none ∧ ∃ e, ev r = some (.off e) ∧ w.inOffBand k.tol e = true) →
              (∀ r,
                x r =
                  { sum := (w.rail r).sum + (if takes = true ∧ (a r).status = .ok then (a r).value else 0)
                    count := (w.rail r).count + (if takes = true ∧ (a r).status = .ok then 1 else 0)
                    fault := (w.rail r).fault || (takes && (a r).status != .ok)
                    onSeen := onSeen r
                    offSeen := offSeen r
                    closeBase := if closes then some (u.channel r).baseline else (w.rail r).closeBase
                    decided := (w.rail r).decided }) →
              v =
                  { w with
                    gap := gap
                    state := if closes then .awaitingOff else if opened then .opened else w.state
                    north := x .north
                    south := x .south } →
              (∀ r, settles r = true ↔ v.state = .awaitingOff ∧ (w.rail r).decided = none ∧ offSeen r = true) →
              (∀ r, h r = decideEstimate v (channelOf k.index r) (u.channel r) (k.record r) (x r)) →
                now w = (([.north, .south] : List Rail).filter settles).map h ∧
                (0 < (t - (w.outScan + BitVec.ofNat 32 k.tol)).toInt →
                  f w = none ∧
                    late w =
                      (([.north, .south] : List Rail).filter fun r => (w.rail r).decided.isNone && !settles r).map h) ∧
                ((t - (w.outScan + BitVec.ofNat 32 k.tol)).toInt ≤ 0 →
                  late w = [] ∧
                    f w =
                      some
                        { v with
                          state :=
                            if v.state = .awaitingOff ∧ ∀ r : Rail, r ∈ [Rail.north, .south] →
                                (w.rail r).decided ≠ none ∨ settles r = true then .done
                            else v.state
                          north :=
                            if settles .north then { x .north with decided := some (h .north).condition }
                            else x .north
                          south :=
                            if settles .south then { x .south with decided := some (h .south).condition }
                            else x .south })) ∧
  ∀ (w : Window) (ch : Fin 8) (c : Channel) (rec : ChannelRecord) (x : RailWindow) (base s8 m8 m : Int) (h : Handed),
    x.closeBase = some base → 1 ≤ x.count → s8 = 8 * x.sum - x.count * base →
      m8 = s8.sign * ((2 * s8.natAbs + x.count) / (2 * x.count) : Nat) →
        m = (m8 * rec.gain).sign * ((2 * (m8 * rec.gain).natAbs + 524288) / 1048576 : Nat) →
          h = decideEstimate w ch c (some rec) x →
            h.ordinal = w.ordinal ∧ h.generation = w.generation ∧ h.channel = ch ∧
              (w.gap = true → h.condition = .gap) ∧
              (w.gap = false → x.fault = true → h.condition = .fault) ∧
              (w.gap = false → x.fault = false → x.onSeen = false → h.condition = .noWheel) ∧
              (w.gap = false → x.fault = false → x.onSeen = true → x.offSeen = false → h.condition = .timing) ∧
              (h.condition ≠ .valid → h.mass = none) ∧
              (h.condition ≠ .saturated →
                h.belowZero = false ∧ h.aboveRange = false ∧
                  h.zeroSuspect = (decide (h.condition = .valid) && c.zeroFault)) ∧
              (w.gap = false → x.fault = false → x.onSeen = true → x.offSeen = true →
                (m < 0 →
                  h.condition = .saturated ∧ h.belowZero = true ∧ h.aboveRange = false ∧ h.zeroSuspect = c.zeroFault) ∧
                (0 ≤ m → m ≤ 65535 →
                  h.condition = .valid ∧ h.mass = some m.toNat ∧ h.zeroSuspect = c.zeroFault) ∧
                (65535 < m →
                  h.condition = .saturated ∧ h.belowZero = false ∧ h.aboveRange = true ∧
                    h.zeroSuspect = c.zeroFault))

/-- The speed factor of a Speed Curve that passes its checks: K_1 up to v_1, K_8 from v_8, and between two points the rounded
interpolation, which lies between their factors; so K always lies in 16,384..65,535 (R108, R116). -/
def Obligations.SpeedFactorStaysBetweenPoints : Prop :=
  ∀ (k : Vector CurvePoint 8) (v : Nat),
    curveFault k = none →
      (v ≤ k[0].v → curveFactor k v = k[0].k) ∧ (k[7].v ≤ v → curveFactor k v = k[7].k) ∧
        (∀ (i : Fin 7) (p q : CurvePoint),
          p = k[i.val] → q = k[i.val + 1] → p.v < v → v ≤ q.v →
            (curveFactor k v : Int) =
                p.k +
                  (2 * (((q.k : Int) - p.k) * ((v : Int) - p.v)) + ((q.v : Int) - p.v)) / (2 * ((q.v : Int) - p.v)) ∧
              min p.k q.k ≤ curveFactor k v ∧ curveFactor k v ≤ max p.k q.k) ∧
        16384 ≤ curveFactor k v ∧ curveFactor k v ≤ 65535

/-- The Load Combiner on a record: each rail with min_zones VALID masses has their rounded mean, corrected by K and held at
65,535; the axle load is the sum of both; the six flags are added exactly where R106 to R112 say; nothing else changes
(R105 to R112). -/
def Obligations.LoadsAreCombinedFromTheEstimates : Prop :=
  ∀ (l : Limits) (curve : Option (Vector CurvePoint 8)) (zones : List (Fin 4)) (pOut : Nat) (a b : AxleRecord)
    (ms : Rail → List Nat) (k : Nat) (mean : Rail → Nat) (corrected : Rail → Nat),
    1 ≤ l.minZones → b = a.combine l curve zones pOut → k = speedFactor curve a.speed →
      (∀ r, ms r = a.railMasses zones r ∧ mean r = (2 * (ms r).sum + (ms r).length) / (2 * (ms r).length) ∧
          corrected r = (2 * (mean r * k) + 32768) / 65536) →
        b =
            { a with
              north := if (ms .north).length < l.minZones then none else some (min 65535 (corrected .north))
              south := if (ms .south).length < l.minZones then none else some (min 65535 (corrected .south))
              axleLoad :=
                if (ms .north).length < l.minZones ∨ (ms .south).length < l.minZones then none
                else some (min 65535 (corrected .north) + min 65535 (corrected .south))
              flags := b.flags } ∧
          (∀ f : AxleFlag,
            hasAxleFlag b.flags f = true ↔
              hasAxleFlag a.flags f = true ∨
                (f = .unweighed ∧ ∃ r, (ms r).length < l.minZones) ∨
                (f = .dynamic ∧ ∃ r hi lo,
                  l.minZones ≤ (ms r).length ∧ hi ∈ ms r ∧ lo ∈ ms r ∧ mean r * l.spreadLimit < (hi - lo) * 256) ∨
                (f = .speedLow ∧ a.speed < l.vMin) ∨ (f = .overspeed ∧ l.vMax < a.speed) ∨
                (f = .overrange ∧ ∃ r, l.minZones ≤ (ms r).length ∧ 65535 < corrected r) ∨
                (f = .accel ∧
                  a.entryPace * l.accelLimit < (max pOut a.entryPace - min pOut a.entryPace) * 64)) ∧
          ∀ (r : Rail) (m : Nat),
            m ∈ ms r ↔ ∃ z ∈ zones, a.estimates[channelOf z r] = some { condition := .valid, mass := some m }

/-! ## Vehicles, identities and the summary -/

/-- The totals of a vehicle from the records of its axles, each axle load being the sum of its rail loads (R111): gross and
totals exactly when every axle load is present, N + S being the gross; net, UNDER_TARE, OVERLOAD, INCOMPLETE and the two
balance flags as R137 and R138 give; the speed is the rounded mean and the axle flags are joined (R137, R138, R139). -/
def Obligations.VehicleTotalsAddUp : Prop :=
  ∀ (l : Limits) (v : Vehicle) (axles : List AxleRecord) (x : VehicleTotals) (loads : List Nat) (g nt st : Nat),
    axles.length = v.count → 1 ≤ v.count →
      (∀ a ∈ axles, a.axleLoad = (a.north.bind fun n => a.south.map fun m => n + m) ∧ a.flags.toNat < 4096) →
      x = vehicleTotals l v (axles.map some) → loads = axles.map (fun a => a.axleLoad.getD 0) → g = loads.sum →
        nt = (axles.map fun a => a.north.getD 0).sum → st = (axles.map fun a => a.south.getD 0).sum →
          x.speed = (2 * (axles.map AxleRecord.speed).sum + v.count) / (2 * v.count) ∧
            (∀ f : AxleFlag, x.flags.getLsbD f.bit = axles.any fun a => hasAxleFlag a.flags f) ∧
            (hasVehicleFlag x.flags .unmatched = v.unmatched) ∧
            (hasVehicleFlag x.flags .spacingUncertain = v.uncertain) ∧
            ((∃ a ∈ axles, a.axleLoad = none) →
              x.gross = none ∧ x.nTotal = none ∧ x.sTotal = none ∧ x.net = none ∧
                hasVehicleFlag x.flags .incomplete = true ∧ hasVehicleFlag x.flags .underTare = false ∧
                hasVehicleFlag x.flags .overload = false ∧ hasVehicleFlag x.flags .sideImbalance = false ∧
                hasVehicleFlag x.flags .endImbalance = false) ∧
            ((∀ a ∈ axles, a.axleLoad ≠ none) →
              x.gross = some g ∧ x.nTotal = some nt ∧ x.sTotal = some st ∧ nt + st = g ∧
                x.net = v.tare.map (fun t => g - t) ∧ hasVehicleFlag x.flags .incomplete = false ∧
                (hasVehicleFlag x.flags .underTare = true ↔ ∃ t, v.tare = some t ∧ g < t) ∧
                (hasVehicleFlag x.flags .overload = true ↔ ∃ m, v.maxGross = some m ∧ m < g) ∧
                (hasVehicleFlag x.flags .sideImbalance = true ↔
                  g * l.lrLimit < (max nt st - min nt st) * 256) ∧
                ∀ front rear,
                  front = (loads.take (v.count / 2)).sum → rear = (loads.drop (v.count - v.count / 2)).sum →
                    (hasVehicleFlag x.flags .endImbalance = true ↔
                      g * l.endLimit < (max front rear - min front rear) * 256))

/-- A consideration forms vehicles one after another while one can be formed; a vehicle formed takes next_seq and the tail of
the list, its axles take its sequence, and it is completed at once when its last axle has cleared (R130, R133). One can be
formed during a train, and at the flush of a QUIET end, with room in the list and the first unassigned ordinal k entered. It
is that of the first Type Table entry that matches while every entry before it fails; an entry undecided before any match
makes the Assembler wait; fails, matches and SPACING_UNCERTAIN are those of R131, and at the QUIET flush those of R144 (R132).
When every entry fails it is UNMATCHED and ends before the first ordinal whose spacing is unknown or at least split_gap, or
with the eighth axle, and at the QUIET flush with last_on (R134, R144). -/
def Obligations.VehiclesFollowTheTypeTable : Prop :=
  (∀ (x : AxleTracker) (flush : Bool) (k : Nat) (t : VehicleType),
      (x.judge flush k t = .fails ↔ x.Fails k t ∨ (flush = true ∧ x.lastOn < k + t.axles - 1)) ∧
        (∀ u, x.judge flush k t = .fits u ↔
          ¬x.Fails k t ∧ (flush = false → k + t.axles ≤ x.lastOn) ∧ (flush = true → k + t.axles - 1 ≤ x.lastOn) ∧
            (u = true ↔ ∃ i, 1 ≤ i ∧ i ≤ t.axles ∧ k + i ≤ x.lastOn ∧ x.spacingAt (k + i) = none)) ∧
        (x.judge flush k t = .undecided ↔ flush = false ∧ ¬x.Fails k t ∧ x.lastOn < k + t.axles)) ∧
    (∀ (x : AxleTracker) (flush : Bool) (splitGap k i : Nat),
      1 ≤ i → x.RunsOn splitGap k i →
        (i ≤ 8 → x.lastOn < k + i → x.split flush splitGap k 8 1 = if flush then some (i, false) else none) ∧
        (i = 8 → k + i ≤ x.lastOn → x.split flush splitGap k 8 1 = some (i, false)) ∧
        (i ≤ 7 → k + i ≤ x.lastOn →
          (x.spacingAt (k + i) = none → x.split flush splitGap k 8 1 = some (i, true)) ∧
            ∀ d, x.spacingAt (k + i) = some d → splitGap ≤ d → x.split flush splitGap k 8 1 = some (i, false))) ∧
    (∀ (s : State) (flush : Bool),
      ((s.train.state = .running ∨ s.train.state = .standing) ∧ flush = false) ∨
          (s.train.state = .ending ∧ (∃ c, s.train.ctx = some c ∧ c.endReason = some .quiet) ∧ flush = true) →
        s.asm.firstFree ≤ s.axles.lastOn → s.asm.list.length < 16 →
          (∀ (before after : List (Option VehicleType)) (t : VehicleType),
            s.asm.types.toList = before ++ some t :: after →
              (∀ e ∈ before, ∀ y, e = some y → s.axles.judge flush s.asm.firstFree y = .fails) →
                (s.axles.judge flush s.asm.firstFree t = .undecided → s.formable = none) ∧
                ∀ u,
                  s.axles.judge flush s.asm.firstFree t = .fits u →
                    s.formable =
                      some
                        { sequence := s.asm.nextSeq, first := s.asm.firstFree, count := t.axles, typeCode := t.code
                          kind := t.kind, tare := t.tare, maxGross := t.maxGross, unmatched := false, uncertain := u
                          state := .formed, resolution := .unresolved, idFlags := 0 }) ∧
          ((∀ e ∈ s.asm.types.toList, ∀ y, e = some y → s.axles.judge flush s.asm.firstFree y = .fails) →
            s.formable =
              (s.axles.split flush s.settings.splitGap s.asm.firstFree 8 1).map fun r =>
                { sequence := s.asm.nextSeq, first := s.asm.firstFree, count := r.1, typeCode := 0, kind := .other
                  tare := none, maxGross := none, unmatched := true, uncertain := r.2, state := .formed
                  resolution := .unresolved, idFlags := 0 })) ∧
    (∀ s : State,
      (s.train.state = .idle ∨ s.train.state = .ignoring ∨ s.axles.lastOn < s.asm.firstFree ∨
          16 ≤ s.asm.list.length ∨
            (s.train.state = .ending ∧ ∀ c, s.train.ctx = some c → c.endReason ≠ some .quiet)) →
        s.formable = none) ∧
    ∀ s : State,
      (s.formable = none → considerFormation s = s) ∧
        ∀ v m,
          s.formable = some v →
            m =
                { s with
                  asm :=
                    { s.asm with
                      list := s.asm.list ++ [v], nextSeq := s.asm.nextSeq + 1, firstFree := v.first + v.count }
                  axles :=
                    { s.axles with
                      queue :=
                        s.axles.queue.map fun a =>
                          if v.first ≤ a.ordinal ∧ a.ordinal ≤ v.first + v.count - 1 then
                            { a with vehicle := some v.sequence }
                          else a } } →
              considerFormation s =
                considerFormation
                  (if v.first + v.count - 1 < s.axles.firstOn then completeVehicle v.sequence m else m)

/-- APPEND CONSIST: BUSY_TRAIN in ENDING, MALFORMED outside 3 to 15 bytes, BAD_VALUE with the first failing field, FULL at 512
entries, else an entry in its ranges is stored and answered by the vehicle of its position, LATE where that was resolved
ABSENT, in the list or released (R146, R147; released: notes/assumptions/25.md). A vehicle that completes takes its totals,
and an UNRESOLVED one is resolved PRESENT by the entry of its position, with TYPE_MISMATCH where an expected field differs;
where there is none ABSENT, with ID_MISSING in ENDING, with ID_TIMEOUT at id_wait 0; else it waits id_wait scans, the waiting
vehicle of the lowest sequence being forced ABSENT with ID_FORCED when four wait already; a vehicle PRESENT or ABSENT keeps
its resolution (R136, R149, R150, R151). ID_WAIT_EXPIRY of a wait that is over resolves the vehicle ABSENT with ID_TIMEOUT
(R150). A wait that is not over does not expire (notes/assumptions/1.md, 20.md). -/
def Obligations.IdentitiesAreAppendedOrTimeOut : Prop :=
  (∀ (s : State) (r : Request) (rest : List Request) (e : ConsistEntry) (p : Nat),
      s.CanExecute r rest → r.code = codeAppendConsist → p = s.consist.length + 1 →
        (s.train.state = .ending → exec .appendConsist s = .next (boundary (s.answered r rest .busyTrain []))) ∧
        (s.train.state ≠ .ending → r.payload.length < 3 ∨ 15 < r.payload.length →
          exec .appendConsist s = .next (boundary (s.answered r rest .malformed []))) ∧
        (∀ (b n k : Byte) (id : List Byte) (f : Nat),
          s.train.state ≠ .ending → r.payload = b :: n :: k :: id → id.length ≤ 12 →
            FirstFails
              [(id ≠ [] ∧ ∀ x ∈ id, 32 ≤ x.toNat ∧ x.toNat ≤ 126, 1), (b.getLsbD 0 = true → n ≠ 0, 2),
                (b.getLsbD 1 = true → 1 ≤ k.toNat ∧ k.toNat ≤ 3, 3)]
              f →
              exec .appendConsist s = .next (boundary (s.answered r rest .badValue (natBytes 1 f)))) ∧
        (s.train.state ≠ .ending → r.payload = consistBytes e → 1 ≤ e.identity.length → e.identity.length ≤ 12 →
          (∀ c ∈ e.identity, 32 ≤ c.toNat ∧ c.toNat ≤ 126) →
            (∀ n, e.typeCode = some n → 1 ≤ n ∧ n ≤ 255) →
              (512 ≤ s.consist.length → exec .appendConsist s = .next (boundary (s.answered r rest .full []))) ∧
              (s.consist.length < 512 →
                (s.train.state = .idle ∨ s.train.state = .ignoring →
                  exec .appendConsist s =
                    .next
                      (boundary
                        (State.answered { s with consist := s.consist ++ [e] } r rest .ok (natBytes 2 p)))) ∧
                (s.train.state = .running ∨ s.train.state = .standing →
                  (∀ c, s.asm.find p = none → s.train.ctx = some c →
                    (c.vehiclesReleased.toNat < p →
                      exec .appendConsist s =
                        .next
                          (boundary
                            (State.answered { s with consist := s.consist ++ [e] } r rest .ok (natBytes 2 p)))) ∧
                    (p ≤ c.vehiclesReleased.toNat →
                      exec .appendConsist s =
                        .next
                          (boundary
                            (State.answered
                              { s with
                                consist := s.consist ++ [e]
                                train := { s.train with ctx := some { c with consistLate := c.consistLate + 1 } } }
                              r rest .late (natBytes 2 p))))) ∧
                  (∀ v, s.asm.find p = some v → v.resolution = .unresolved →
                    exec .appendConsist s =
                      .next
                        (boundary
                          (State.answered { s with consist := s.consist ++ [e] } r rest .ok (natBytes 2 p)))) ∧
                  (∀ v x, s.asm.find p = some v → v.resolution = .waiting x →
                    ∃ t : State,
                      exec .appendConsist s = .next (boundary (t.answered r rest .ok (natBytes 2 p))) ∧
                        t = { s with consist := s.consist ++ [e], asm := t.asm } ∧
                        ∃ w,
                          t.asm.find p = some w ∧ w.resolution = .present e.identity ∧ w.state = v.state ∧
                            (hasVehicleFlag w.idFlags .typeMismatch = true ↔
                              hasVehicleFlag v.idFlags .typeMismatch = true ∨
                                (∃ n, e.typeCode = some n ∧ n ≠ v.typeCode) ∨ ∃ n, e.kind = some n ∧ n ≠ v.kind)) ∧
                  (∀ v c, s.asm.find p = some v → v.resolution = .absent → s.train.ctx = some c →
                    exec .appendConsist s =
                      .next
                        (boundary
                          (State.answered
                            { s with
                              consist := s.consist ++ [e]
                              train := { s.train with ctx := some { c with consistLate := c.consistLate + 1 } } }
                            r rest .late (natBytes 2 p)))))))) ∧
    (∀ (s t : State) (q : Nat) (v w : Vehicle),
      s.VehiclesOrdered → s.asm.find q = some v → t = completeVehicle q s →
        w =
            { v with
              state :=
                .complete
                  (vehicleTotals s.cal.limits v ((List.range v.count).map fun i => s.axles.find (v.first + i))) } →
          t = { s with asm := { s.asm with list := t.asm.list } } ∧
          (v.resolution ≠ .unresolved → t.asm.list = s.asm.list.map fun y => if y.sequence = q then w else y) ∧
          (v.resolution = .unresolved →
            (∀ e, entryAt s.consist q = some e →
              t.asm.list =
                s.asm.list.map fun y =>
                  if y.sequence = q then
                    { w with
                      resolution := .present e.identity
                      idFlags :=
                        if (∃ n, e.typeCode = some n ∧ n ≠ v.typeCode) ∨ ∃ n, e.kind = some n ∧ n ≠ v.kind then
                          v.idFlags ||| VehicleFlag.typeMismatch.mask
                        else v.idFlags }
                  else y) ∧
            (entryAt s.consist q = none →
              (s.train.state = .ending →
                t.asm.list =
                  s.asm.list.map fun y =>
                    if y.sequence = q then
                      { w with resolution := .absent, idFlags := v.idFlags ||| VehicleFlag.idMissing.mask }
                    else y) ∧
              (s.train.state ≠ .ending → s.settings.idWait = 0 →
                t.asm.list =
                  s.asm.list.map fun y =>
                    if y.sequence = q then
                      { w with resolution := .absent, idFlags := v.idFlags ||| VehicleFlag.idTimeout.mask }
                    else y) ∧
              ∀ begun : Vehicle → Vehicle,
                s.train.state ≠ .ending → s.settings.idWait ≠ 0 →
                  (∀ y,
                    begun y =
                      if y.sequence = q then
                        { w with resolution := .waiting (s.rx.time + BitVec.ofNat 32 s.settings.idWait) }
                      else y) →
                    ((s.asm.list.filter Vehicle.isWaiting).length < 4 → t.asm.list = s.asm.list.map begun) ∧
                    ∀ front y back,
                      4 ≤ (s.asm.list.filter Vehicle.isWaiting).length → s.asm.list = front ++ y :: back →
                        (∀ z ∈ front, z.isWaiting = false) → y.isWaiting = true →
                          t.asm.list =
                            front.map begun ++
                              { y with resolution := .absent, idFlags := y.idFlags ||| VehicleFlag.idForced.mask } ::
                                back.map begun))) ∧
    ∀ (s : State) (q : Nat) (v : Vehicle) (x : Scan),
      s.asm.find q = some v → v.resolution = .waiting x →
        (0 ≤ (s.rx.time - x).toInt →
          ∃ t,
            exec (.idWaitExpiry q) s = .next (boundary t) ∧ t = { s with asm := { s.asm with list := t.asm.list } } ∧
              t.asm.list.map Vehicle.sequence = s.asm.list.map Vehicle.sequence ∧
              t.asm.find q =
                some { v with resolution := .absent, idFlags := v.idFlags ||| VehicleFlag.idTimeout.mask }) ∧
        ((s.rx.time - x).toInt < 0 → exec (.idWaitExpiry q) s = .next s)

/-- VEHICLE_RELEASE with a COMPLETE, resolved head vehicle and a free place: its record joins the Record Queue, it leaves the
list and its axle records the Axle Queue, lowest_held moves past it, and the counts of the context advance; it is an
occurrence of VEHICLES_RELEASED, and if UNMATCHED one of UNMATCHED_VEHICLES; the step from 47 to 48 entries is a
RECORD_BACKLOG cause with the train number; then formation is considered. Otherwise no vehicle is released (R78, R142, R153,
R154, R155, R175; one release a command: notes/assumptions/3.md). -/
def Obligations.ReleaseSendsTheHeadVehicle : Prop :=
  (∀ (s : State) (v : Vehicle) (list : List Vehicle) (x : VehicleTotals) (c : TrainContext),
      s.asm.list = v :: list → v.state = .complete x → v.isResolved = true → s.link.records.length < 64 →
        s.train.ctx = some c →
          ∃ t,
            exec .vehicleRelease s = .next (boundary t) ∧
              t.link =
                { s.link with
                  records :=
                    s.link.records ++
                      [.vehicle
                        { train := c.number, sequence := v.sequence, typeCode := v.typeCode, kind := v.kind
                          count := v.count, first := v.first, gross := x.gross, net := x.net, nTotal := x.nTotal
                          sTotal := x.sTotal, speed := x.speed, flags := x.flags ||| v.idFlags
                          identity := v.identity
                          axles :=
                            (List.range v.count).filterMap fun i =>
                              (s.axles.find (v.first + i)).map fun a =>
                                { ordinal := a.ordinal, axleLoad := a.axleLoad, north := a.north, south := a.south
                                  speed := a.speed, flags := a.flags } }] } ∧
              t.axles.lowestHeld = v.first + v.count - 1 + 1 ∧
              (∀ a ∈ t.axles.queue, v.first + v.count - 1 < a.ordinal) ∧ t.axles.firstOn = s.axles.firstOn ∧
              t.axles.lastOn = s.axles.lastOn ∧ t.axles.highest = s.axles.highest ∧
              (∃ formed, t.asm.list.map Vehicle.sequence = list.map Vehicle.sequence ++ formed) ∧
              t.train =
                { s.train with
                  ctx :=
                    some
                      { c with
                        vehiclesReleased := c.vehiclesReleased + 1
                        consistUsed := c.consistUsed + (if v.identity.isSome then 1 else 0)
                        vehiclesWithGross := c.vehiclesWithGross + (if x.gross.isSome then 1 else 0)
                        grossTotal := c.grossTotal + BitVec.ofNat 32 (x.gross.getD 0)
                        payloadTotal :=
                          c.payloadTotal + (if v.kind = .wagon then BitVec.ofNat 32 (x.net.getD 0) else 0) } } ∧
              (∀ j a, v.first + v.count - 1 < j → s.axles.find j = some a →
                ∃ w, t.axles.find j = some { a with vehicle := w }) ∧
              t.asm.types = s.asm.types ∧
              s.Counts t
                (fun k => k.ofEvent .vehiclesReleased 1 + k.ofEvent .unmatchedVehicles v.unmatched.toNat)
                [.recordBacklog] ∧
              t.notices.entry .recordBacklog =
                (s.notices.entry .recordBacklog).after (s.notices.level .recordBacklog)
                  (if s.link.records.length = 47 then [c.number.toNat] else []) ∧
              (∃ m : State,
                t = considerFormation m ∧
                  m =
                    { t with
                      asm := { s.asm with list := list }
                      axles :=
                        { t.axles with
                          queue := s.axles.queue.filter fun a => v.first + v.count - 1 < a.ordinal } }) ∧
              t = { s with
                    link := t.link, axles := t.axles, asm := t.asm, train := t.train, notices := t.notices
                    counters := t.counters }) ∧
    ∀ s : State,
      (s.asm.list = [] ∨ 64 ≤ s.link.records.length ∨
          ∃ v list, s.asm.list = v :: list ∧ (v.isComplete = false ∨ v.isResolved = false)) →
        exec .vehicleRelease s = .next s

/-- SUMMARY_PLACED of an ENDING train with no vehicle left and a free place: the summary with consist unused, the adjustment
counter and CAL_PENDING joins the Record Queue, the Consist List and the pending events are cleared, the context is
disposed of, and the state is IGNORING after an abort or after passages during ENDING, else IDLE (R62, R148, R155). -/
def Obligations.SummaryEndsTheTrain : Prop :=
  ∀ (s : State) (c : TrainContext) (ignoring : Bool) (again : Option Scan),
    s.train.state = .ending → s.asm.list = [] → s.train.ctx = some c →
      (ignoring = true ↔ (c.endReason ≠ none ∧ c.endReason ≠ some .quiet) ∨ c.passagesDuringEnding = true) →
        again = (if ignoring then some (s.rx.time + BitVec.ofNat 32 s.settings.quietTime) else none) →
          (s.link.records.length < 64 →
            exec .summaryPlaced s =
              .next
                (boundary
                  { s with
                    link :=
                      { s.link with
                        records :=
                          s.link.records ++
                            [.summary
                              { ctx :=
                                  { c with
                                    consistUnused := BitVec.ofNat 32 (s.consist.length - c.vehiclesReleased.toNat) }
                                counter := s.cal.counter, calPending := s.cal.calPending }] }
                    notices :=
                      if s.link.records.length = 47 then s.notices.raise .recordBacklog c.number.toNat else s.notices
                    consist := []
                    west := { s.west with pending := none }
                    east := { s.east with pending := none }
                    train :=
                      { s.train with ctx := none, quiet := again, state := if ignoring then .ignoring else .idle } })) ∧
          (64 ≤ s.link.records.length → exec .summaryPlaced s = .next s)

/-! ## Frame boundaries -/

/-- The end of a frame, and the release of RL_HOLD at an IDLE transmitter, are boundaries; the place that the chosen response
frees executes the head request exactly as its own row does, and the place that the chosen record frees is judged for a
release, or for the held summary once no vehicle is left (R158, R159, R160; notes/assumptions/3.md). A frame is never cut
short by RL_HOLD; an end with no frame going out and a release of no hold change nothing (notes/assumptions/1.md). -/
def Obligations.FrameEndsHandOnTheFreedPlace : Prop :=
  ∀ (s u : State) (w : Bool) (o : Host.Outcome State Fault Refusal),
    u = { s with hold := false, link := { s.link with sending := none } } →
      exec .rlHoldAssert s = .next { s with hold := true } ∧
        (s.hold = true → s.link.sending.isSome = true →
          exec (.frameEnd w) s = .next { s with link := { s.link with sending := none } } ∧
            exec (.rlHoldRelease w) s = .next { s with hold := false }) ∧
        (s.link.sending = none → exec (.frameEnd w) s = .next s) ∧
        (s.hold = false → exec (.rlHoldRelease w) s = .next s) ∧
        ((o = exec (.frameEnd w) s ∧ s.hold = false ∧ s.link.sending.isSome = true) ∨
            (o = exec (.rlHoldRelease w) s ∧ s.hold = true ∧ s.link.sending = none) →
          (∀ r rest, s.link.responses = r :: rest →
              (s.requests = [] → o = .next (boundary u)) ∧
                ∀ q rest', s.requests = q :: rest' → o = exec (requestRow q.code w) (boundary u)) ∧
            (∀ q rest, s.link.responses = [] → s.notices.choose 5 7 = none → s.link.records = q :: rest →
              (s.asm.list ≠ [] → o = exec .vehicleRelease (boundary u)) ∧
                (s.asm.list = [] → o = exec .summaryPlaced (boundary u))) ∧
            (s.link.responses = [] → s.notices.choose 5 7 ≠ none ∨ s.link.records = [] →
              o = .next (boundary u)))

/-! ## Management requests -/

/-- The step of a request row does nothing without an executable head request of its own code: with the buffer empty, in
STARTING, without a free place of the Response Queue, or behind a request of another row (R16, R157, R167;
notes/assumptions/1.md). An unknown code, and a payload where none is taken, are answered MALFORMED and change nothing
(R167). CLEAR CONSIST is refused with BUSY_TRAIN during a train and empties the list otherwise (R148). -/
def Obligations.RequestRowsServeTheHeadRequest : Prop :=
  (∀ (s : State) (code : Byte) (w : Bool),
      (s.requests = [] ∨ s.part = .starting ∨ 4 ≤ s.link.responses.length + s.cal.committing.isSome.toNat ∨
          ∃ r rest, s.requests = r :: rest ∧ requestRow r.code w ≠ requestRow code w) →
        exec (requestRow code w) s = .next s) ∧
    ∀ (s : State) (r : Request) (rest : List Request) (w : Bool),
      s.CanExecute r rest →
        (r.code ∉ knownCodes → exec .unknownRequest s = .next (boundary (s.answered r rest .malformed []))) ∧
        (r.payload ≠ [] →
          r.code ∈
              [codeReadStatus, codeReadNotices, codeClearNotices, codeClearConsist, codeReadCounters,
                codeResetCounters] →
            exec (requestRow r.code w) s = .next (boundary (s.answered r rest .malformed []))) ∧
        (r.payload = [] → r.code = codeClearConsist →
          (s.train.state = .running ∨ s.train.state = .standing ∨ s.train.state = .ending →
            exec .clearConsist s = .next (boundary (s.answered r rest .busyTrain []))) ∧
          (s.train.state = .idle ∨ s.train.state = .ignoring →
            exec .clearConsist s = .next (boundary (State.answered { s with consist := [] } r rest .ok []))))

/-- READ STATUS is answered OK with 30 bytes that say the state as it stands, the request itself no longer in the buffer
(R168, R182). READ TABLE is answered OK with the named entry in the layout of its write, or with the byte 0 where none is
held; BAD_INDEX outside the tables and their ranges; MALFORMED but for three bytes (R13, R169, R182). Neither changes any
state. -/
def Obligations.StatusAndTablesAreRead : Prop :=
  (∀ (s : State) (r : Request) (rest : List Request) (b : List Byte),
      s.CanExecute r rest → r.code = codeReadStatus → r.payload = [] → b = statusBytes { s with requests := rest } →
        exec .readStatus s = .next (boundary (s.answered r rest .ok b)) ∧ b.length = 30 ∧
          natAt b 0 1 = s.part.code ∧ natAt b 1 1 = s.train.state.code ∧
          natAt b 2 2 = s.statusTrainNumber.toNat ∧
          natAt b 4 1 = s.calEn.toNat + 2 * s.cal.calPending.toNat + 4 * s.cal.committing.isSome.toNat ∧
          natAt b 5 2 = s.cal.counter % 65536 ∧ natAt b 7 1 = s.rx.synced.toNat ∧ natAt b 8 1 = s.pace.lock.code ∧
          natAt b 9 2 = s.axles.firstOn % 65536 ∧ natAt b 11 2 = s.axles.lastOn % 65536 ∧
          natAt b 13 2 = s.axles.highest % 65536 ∧ natAt b 15 2 = s.axles.lowestHeld % 65536 ∧
          natAt b 17 1 = s.axles.queue.length % 256 ∧ (∀ z : Fin 4, natAt b (18 + z) 1 = s.windowCount z % 256) ∧
          natAt b 22 1 = s.asm.list.length % 256 ∧ natAt b 23 2 = s.consist.length % 65536 ∧
          natAt b 25 1 = waitingCount s.asm.list % 256 ∧ natAt b 26 1 = s.link.records.length % 256 ∧
          natAt b 27 1 = s.link.details.length % 256 ∧
          natAt b 28 1 = (s.link.responses.length + 128 * s.cal.committing.isSome.toNat) % 256 ∧
          natAt b 29 1 = rest.length % 256) ∧
    ∀ (s : State) (r : Request) (rest : List Request) (table index : Nat),
      s.CanExecute r rest → r.code = codeReadTable →
        (r.payload.length ≠ 3 → exec .readTable s = .next (boundary (s.answered r rest .malformed []))) ∧
          (r.payload = natBytes 1 table ++ natBytes 2 index → table < 256 → index < 65536 →
            (table = 1 → exec .readTable s = s.tableRead r rest (s.cal.geometry.map geometryBytes)) ∧
            (∀ ch : Fin 8, table = 2 → index = ch →
              exec .readTable s = s.tableRead r rest (s.cal.channels[ch].map channelBytes)) ∧
            (table = 3 → exec .readTable s = s.tableRead r rest (s.cal.curve.map curveBytes)) ∧
            (table = 4 →
              exec .readTable s =
                s.tableRead r rest (some (limitsBytes s.cal.limits ++ natBytes 1 s.cal.origin.code))) ∧
            (table = 5 → exec .readTable s = s.tableRead r rest (some (settingsBytes s.settings))) ∧
            (∀ i : Fin 32, table = 6 → index = i →
              exec .readTable s = s.tableRead r rest (s.asm.types[i].map typeBytes)) ∧
            (table = 7 → 1 ≤ index → index ≤ 512 →
              exec .readTable s = s.tableRead r rest (s.consist[index - 1]?.map consistBytes)) ∧
            (∀ k : NoticeKind, table = 8 → index = k.index + 1 →
              exec .readTable s = s.tableRead r rest (some (natBytes 1 (s.notices.level k)))) ∧
            (table = 0 ∨ 9 ≤ table ∨ (table = 2 ∧ 8 ≤ index) ∨ (table = 6 ∧ 32 ≤ index) ∨
                (table = 7 ∧ (index = 0 ∨ 512 < index)) ∨ (table = 8 ∧ (index = 0 ∨ 16 < index)) →
              exec .readTable s = .next (boundary (s.answered r rest .badIndex []))))

/-- READ NOTICES answers level, mark, count and last argument of every kind and changes nothing; CLEAR NOTICES clears every
mark and count and keeps arguments and levels; WRITE LEVEL sets one level, level 0 clearing its mark alone, and refuses a
kind outside 1..16 and a level above 7 (R163, R171, R182; the value of the pending byte is notes/assumptions/26.md). -/
def Obligations.NoticesAreReadClearedAndLevelled : Prop :=
  ∀ (s : State) (r : Request) (rest : List Request),
    s.CanExecute r rest →
      (r.code = codeReadNotices → r.payload = [] →
        ∃ b,
          exec .readNotices s = .next (boundary (s.answered r rest .ok b)) ∧ b.length = 80 ∧
            ∀ k : NoticeKind,
              natAt b (5 * k.index) 1 = s.notices.level k % 256 ∧
                natAt b (5 * k.index + 1) 1 = (s.notices.entry k).pending.toNat ∧
                natAt b (5 * k.index + 2) 1 = (s.notices.entry k).count % 256 ∧
                natAt b (5 * k.index + 3) 2 = (s.notices.entry k).lastArg.toNat) ∧
      (r.code = codeClearNotices → r.payload = [] →
        ∃ u : NoticeUnit,
          exec .clearNotices s = .next (boundary (State.answered { s with notices := u } r rest .ok [])) ∧
            u.levels = s.notices.levels ∧
            ∀ k, u.entry k = { s.notices.entry k with pending := false, count := 0 }) ∧
      (r.code = codeWriteLevel →
        (r.payload.length ≠ 2 → exec .writeLevel s = .next (boundary (s.answered r rest .malformed []))) ∧
        ∀ kind level : Nat,
          r.payload = natBytes 1 kind ++ natBytes 1 level → kind < 256 → level < 256 →
            (kind = 0 ∨ 16 < kind → exec .writeLevel s = .next (boundary (s.answered r rest .badIndex []))) ∧
            (1 ≤ kind → kind ≤ 16 → 7 < level →
              exec .writeLevel s = .next (boundary (s.answered r rest .badValue [1]))) ∧
            ∀ k : NoticeKind,
              kind = k.index + 1 → level ≤ 7 →
                ∃ u : NoticeUnit,
                  exec .writeLevel s = .next (boundary (State.answered { s with notices := u } r rest .ok [])) ∧
                    u.level k = level ∧
                    u.entry k =
                      { s.notices.entry k with pending := (s.notices.entry k).pending && decide (level ≠ 0) } ∧
                    ∀ m, m ≠ k → u.level m = s.notices.level m ∧ u.entry m = s.notices.entry m)

/-- WRITE SETTINGS replaces the four settings when each is in its range, whatever the part and train state, and otherwise
reports the first failing field (R170). WRITE TYPE replaces or empties one entry; it is refused during a train, with
BAD_INDEX outside 0..31, MALFORMED where its length does not fit its axle count (notes/assumptions/19.md), and otherwise with
the first field out of its range, the code also where another entry holds it (R127, R128). -/
def Obligations.SettingsAndTypesAreWritten : Prop :=
  ∀ (s : State) (r : Request) (rest : List Request),
    s.CanExecute r rest →
      (r.code = codeWriteSettings →
        (r.payload.length ≠ 7 → exec .writeSettings s = .next (boundary (s.answered r rest .malformed []))) ∧
        (∀ x : Settings,
          r.payload = settingsBytes x → 100 ≤ x.quietTime → x.quietTime ≤ 65535 → x.idWait ≤ 65535 →
            1000 ≤ x.splitGap → x.splitGap ≤ 6000 →
              exec .writeSettings s = .next (boundary (State.answered { s with settings := x } r rest .ok []))) ∧
        ∀ q i g d : Nat,
          r.payload = natBytes 2 q ++ natBytes 2 i ++ natBytes 2 g ++ natBytes 1 d → q < 65536 → i < 65536 →
            g < 65536 → d < 256 →
              (q < 100 → exec .writeSettings s = .next (boundary (s.answered r rest .badValue [1]))) ∧
              (100 ≤ q → g < 1000 ∨ 6000 < g →
                exec .writeSettings s = .next (boundary (s.answered r rest .badValue [3]))) ∧
              (100 ≤ q → 1000 ≤ g → g ≤ 6000 → 1 < d →
                exec .writeSettings s = .next (boundary (s.answered r rest .badValue [4])))) ∧
      (r.code = codeWriteType →
        (s.train.state = .running ∨ s.train.state = .standing ∨ s.train.state = .ending →
          exec .writeType s = .next (boundary (s.answered r rest .busyTrain []))) ∧
        (s.train.state = .idle ∨ s.train.state = .ignoring →
          (∀ (i : Nat) (p : List Byte), r.payload = natBytes 1 i ++ p → 32 ≤ i → i < 256 →
            exec .writeType s = .next (boundary (s.answered r rest .badIndex []))) ∧
          (∀ i : Fin 32, r.payload = natBytes 1 i →
            exec .writeType s =
              .next
                (boundary
                  (State.answered { s with asm := { s.asm with types := s.asm.types.set i none } } r rest .ok []))) ∧
          (r.payload = [] → exec .writeType s = .next (boundary (s.answered r rest .malformed []))) ∧
          (∀ (i : Fin 32) (p : List Byte), r.payload = natBytes 1 i ++ p → 1 ≤ p.length → p.length < 16 →
            exec .writeType s = .next (boundary (s.answered r rest .malformed []))) ∧
          (∀ (i : Fin 32) (code kind n tolerance gap present tare gross : Nat) (p : List Byte),
            r.payload =
                natBytes 1 i ++ natBytes 1 code ++ natBytes 1 kind ++ natBytes 1 n ++ natBytes 2 tolerance ++
                  natBytes 2 gap ++ natBytes 1 present ++ natBytes 4 tare ++ natBytes 4 gross ++ p →
              code < 256 → kind < 256 → n < 256 → tolerance < 65536 → gap < 65536 → present < 256 →
                tare < 4294967296 → gross < 4294967296 →
                  (n = 0 ∨ p.length ≠ 2 * (n - 1) →
                    exec .writeType s = .next (boundary (s.answered r rest .malformed []))) ∧
                  ∀ (spacings : List Nat) (f : Nat),
                    p = spacings.flatMap (natBytes 2) → (∀ d ∈ spacings, d < 65536) → n = spacings.length + 1 →
                      FirstFails
                        ([(1 ≤ code ∧
                              ∀ (j : Fin 32) (o : VehicleType), j ≠ i → s.asm.types[j] = some o → o.code ≠ code, 1),
                            (1 ≤ kind ∧ kind ≤ 3, 2), (2 ≤ n ∧ n ≤ 8, 3), (tolerance ≤ 500, 4),
                            (1000 ≤ gap ∧ gap ≤ 10000, 5), (present.testBit 0 = true → tare ≤ 200000, 6),
                            (present.testBit 1 = true → 1 ≤ gross ∧ gross ≤ 1048560, 7)] ++
                          spacings.zipIdx.map fun d => (500 ≤ d.1 ∧ d.1 ≤ 20000, 8 + d.2))
                        f →
                        exec .writeType s = .next (boundary (s.answered r rest .badValue (natBytes 1 f)))) ∧
          ∀ (i : Fin 32) (t : VehicleType),
            r.payload = natBytes 1 i ++ typeBytes t → 1 ≤ t.code → t.code ≤ 255 → t.tolerance ≤ 500 →
              1000 ≤ t.gapMin → t.gapMin ≤ 10000 → (∀ n, t.tare = some n → n ≤ 200000) →
                (∀ n, t.maxGross = some n → 1 ≤ n ∧ n ≤ 1048560) → 1 ≤ t.spacings.length → t.spacings.length ≤ 7 →
                  (∀ d ∈ t.spacings, 500 ≤ d ∧ d ≤ 20000) →
                    ((∀ (j : Fin 32) (o : VehicleType), j ≠ i → s.asm.types[j] = some o → o.code ≠ t.code) →
                      exec .writeType s =
                        .next
                          (boundary
                            (State.answered { s with asm := { s.asm with types := s.asm.types.set i (some t) } } r
                              rest .ok []))) ∧
                    ((∃ (j : Fin 32) (o : VehicleType), j ≠ i ∧ s.asm.types[j] = some o ∧ o.code = t.code) →
                      exec .writeType s = .next (boundary (s.answered r rest .badValue [1])))))

/-- WRITE COUNTER replaces one selection and zeroes its counter, refused with BAD_INDEX outside 0..3 and with the first field
out of its range; READ COUNTERS answers the four counters and changes nothing;
RESET COUNTERS zeroes all four and keeps their selections (R174, R177, R182; the codes of invert and edge are
notes/assumptions/9.md, the value of the overflow byte notes/assumptions/26.md). A sample of the occupancy and HOLD_SCANS
counters adds the quantity at threshold 0, else 1 at its condition, with edge on only where the previous condition is
false (R176). -/
def Obligations.CountersAreSelectedSampledAndZeroed : Prop :=
  (∀ (s : State) (r : Request) (rest : List Request),
      s.CanExecute r rest →
        (r.code = codeWriteCounter →
          (r.payload.length ≠ 9 → exec .writeCounter s = .next (boundary (s.answered r rest .malformed []))) ∧
          (∀ (i : Nat) (x : Selection), r.payload = natBytes 1 i ++ selectionBytes x → 4 ≤ i → i < 256 →
            exec .writeCounter s = .next (boundary (s.answered r rest .badIndex []))) ∧
          (∀ (i : Fin 4) (x : Selection),
            r.payload = natBytes 1 i ++ selectionBytes x → x.threshold ≤ 255 → x.high ≤ 65535 →
              (x.low ≤ x.high →
                exec .writeCounter s =
                  .next
                    (boundary
                      (State.answered
                        { s with
                          counters :=
                            s.counters.set i { value := 0, overflow := false, previous := false, selection := x } }
                        r rest .ok []))) ∧
              (x.high < x.low → x.low ≤ 65535 →
                exec .writeCounter s = .next (boundary (s.answered r rest .badValue [6])))) ∧
          (∀ (i : Fin 4) (event threshold invert edge low high f : Nat),
            r.payload =
                natBytes 1 i ++ natBytes 1 event ++ natBytes 1 threshold ++ natBytes 1 invert ++ natBytes 1 edge ++
                  natBytes 2 low ++ natBytes 2 high →
              event < 256 → threshold < 256 → invert < 256 → edge < 256 → low < 65536 → high < 65536 →
                FirstFails
                  [(event ≤ 11, 1), (threshold ≤ 255, 2), (invert ≤ 1, 3), (edge ≤ 1, 4), (low ≤ 65535, 5),
                    (low ≤ high ∧ high ≤ 65535, 6)]
                  f →
                  exec .writeCounter s = .next (boundary (s.answered r rest .badValue (natBytes 1 f))))) ∧
        (r.code = codeReadCounters → r.payload = [] →
          ∃ b,
            exec .readCounters s = .next (boundary (s.answered r rest .ok b)) ∧ b.length = 52 ∧
              ∀ i : Fin 4,
                natAt b (13 * i) 4 = s.counters[i].value % 4294967296 ∧
                  natAt b (13 * i + 4) 1 = s.counters[i].overflow.toNat ∧
                  (b.drop (13 * i + 5)).take 8 = selectionBytes s.counters[i].selection) ∧
        (r.code = codeResetCounters → r.payload = [] →
          ∃ k : Vector Counter 4,
            exec .resetCounters s = .next (boundary (State.answered { s with counters := k } r rest .ok [])) ∧
              ∀ i : Fin 4,
                k[i] =
                  { value := 0, overflow := false, previous := false, selection := s.counters[i].selection })) ∧
    ∀ (s : State) (i : Fin 4) (q : Nat) (c d : Counter) (condition : Bool),
      c = s.counters[i] → d = (sampleOccupancy s).counters[i] →
        (condition = true ↔
          (c.selection.invert = false ∧ c.selection.threshold ≤ q) ∨
            (c.selection.invert = true ∧ q < c.selection.threshold)) →
          (c.selection.event = .axleQueueOccupancy ∧ q = s.axles.queue.length) ∨
              (c.selection.event = .recordQueueOccupancy ∧ q = s.link.records.length) ∨
                (c.selection.event = .holdScans ∧ q = s.hold.toNat) →
            d.selection = c.selection ∧
              (c.selection.threshold = 0 → d.value = min 4294967295 (c.value + q) ∧ d.previous = c.previous) ∧
              (c.selection.threshold ≠ 0 →
                d.previous = condition ∧
                  (condition = true → c.selection.edge = false ∨ c.previous = false → c.value < 4294967295 →
                    d.value = c.value + 1) ∧
                  (condition = false ∨ (c.selection.edge = true ∧ c.previous = true) → d.value = c.value))

/-- RESTART: BUSY_COMMIT with a commit in flight, else MALFORMED with a payload; otherwise every block is emptied or kept as
the table of R172 lists, and its own OK is the one entry of the Response Queue (R81, R172). -/
def Obligations.RestartEmptiesTheBlocks : Prop :=
  ∀ (s : State) (r : Request) (rest : List Request),
    s.CanExecute r rest → r.code = codeRestart →
      (s.cal.committing ≠ none → exec .restart s = .next (boundary (s.answered r rest .busyCommit []))) ∧
      (s.cal.committing = none → r.payload ≠ [] →
        exec .restart s = .next (boundary (s.answered r rest .malformed []))) ∧
      (s.cal.committing = none → r.payload = [] →
        ∃ t,
          exec .restart s = .next (boundary t) ∧
            t.train =
              { state := .idle, ctx := none, nextNumber := s.train.nextNumber, quiet := none, ignoredBetween := 0 } ∧
            t.axles = { highest := 0, firstOn := 1, lastOn := 0, lowestHeld := 1, queue := [] } ∧
            (∀ ch : Fin 8,
              t.zones[channelZone ch].channel (channelRail ch) =
                { baseline := (s.cal.channels[ch].map fun c => 8 * c.zeroCal).getD 0, zeroFault := false
                  blockCount := 0, blockSum := 0, presence := .empty, run := none }) ∧
            (∀ z : Fin 4, t.zones[z].windows = []) ∧ t.west = { pending := none, rockCount := 0 } ∧
            t.east = { pending := none, rockCount := 0 } ∧
            t.pace = { history := [], coarse := 0, fine := 0, lock := .none, running := none } ∧
            t.asm = { types := s.asm.types, list := [], nextSeq := 1, firstFree := 1 } ∧ t.consist = [] ∧
            t.link =
              { records := [], details := [], sending := s.link.sending
                responses := [{ tag := r.tag, code := r.code, status := .ok, payload := [] }] } ∧
            t.notices.levels = s.notices.levels ∧
            (∀ k : NoticeKind, t.notices.entry k = { pending := false, count := 0, lastArg := 0 }) ∧
            t.requests = [] ∧
            (∀ i : Fin 4,
              t.counters[i] =
                { value := 0, overflow := false, previous := false, selection := s.counters[i].selection }) ∧
            t =
              { s with
                train := t.train, axles := t.axles, zones := t.zones, west := t.west, east := t.east, pace := t.pace
                asm := t.asm, consist := t.consist, link := t.link, notices := t.notices, requests := t.requests
                counters := t.counters })

/-! ## Metrological writes and commits -/

/-- The protection of R118, in its order, refuses the four metrological writes and COMMIT CALIBRATION before any of their
payload is looked at, and nothing but the answer changes. A change of CAL_EN takes the new level and, outside STARTING,
raises CAL_EN_CHANGED with it; the same level is no change (notes/assumptions/16.md). -/
def Obligations.ProtectionRefusesInItsOrder : Prop :=
  (∀ (s : State) (r : Request) (rest : List Request) (w : Bool),
      s.CanExecute r rest →
        r.code ∈
            [codeWriteGeometry, codeWriteChannel, codeWriteSpeedCurve, codeWriteLimits, codeCommitCalibration] →
          (s.calEn = false → exec (requestRow r.code w) s = .next (boundary (s.answered r rest .locked []))) ∧
          (s.calEn = true → s.train.state = .running ∨ s.train.state = .standing ∨ s.train.state = .ending →
            exec (requestRow r.code w) s = .next (boundary (s.answered r rest .busyTrain []))) ∧
          (s.calEn = true → s.train.state = .idle ∨ s.train.state = .ignoring → s.cal.committing ≠ none →
            exec (requestRow r.code w) s = .next (boundary (s.answered r rest .busyCommit [])))) ∧
    ∀ (s : State) (level : Bool),
      (level = s.calEn → exec (.calEnChange level) s = .next s) ∧
      (level ≠ s.calEn → s.part = .starting → exec (.calEnChange level) s = .next { s with calEn := level }) ∧
      (level ≠ s.calEn → s.part ≠ .starting →
        exec (.calEnChange level) s =
          .next (boundary { s with calEn := level, notices := s.notices.raise .calEnChanged level.toNat }))

/-- Each metrological write past the protection: MALFORMED by its shape, BAD_VALUE with the first failing field, and otherwise
the table replaced whole, CAL_PENDING set, readiness evaluated on the new tables, answered OK; an accepted Channel Record
reloads its channel's baseline and keeps its presence state (R7, R8, R10, R11, R81, R115 to R117, R119). The checks of the
other three tables are described by GeometryChecksOrderTheSection. The tables make the part READY exactly when a Geometry
Record, the Channel Records of channels 0 to 2Z − 1 and a Speed Curve are held and the Limits are not the defaults (R11,
R117). -/
def Obligations.MetrologicalWritesReplaceTheirTable : Prop :=
  (∀ c : Calibration,
    c.ready = true ↔
      (∃ g, c.geometry = some g ∧ ∀ ch : Fin 8, ch.val < 2 * g.zones.length → c.channels[ch] ≠ none) ∧
        c.curve ≠ none ∧ c.origin ≠ .default) ∧
  ∀ (s : State) (r : Request) (rest : List Request),
    s.CanExecute r rest → s.calEn = true → s.train.state = .idle ∨ s.train.state = .ignoring →
      s.cal.committing = none →
        (r.code = codeWriteGeometry →
          ((∀ z : Nat, r.payload.length ≠ 11 + 4 * z ∨ natAt r.payload 0 1 ≠ z) →
            exec .writeGeometry s = .next (boundary (s.answered r rest .malformed []))) ∧
          ∀ g : GeometryRecord,
            r.payload = geometryBytes g → g.zones.length < 256 → g.fScan < 65536 → g.dW < 65536 → g.dE < 65536 →
              g.cE < 65536 → g.minAxleSpacing < 65536 → (∀ z ∈ g.zones, z.a < 65536 ∧ z.b < 65536) →
                (∀ n, geometryFault s.cal.limits.minZones g = some n →
                  exec .writeGeometry s = .next (boundary (s.answered r rest .badValue (natBytes 1 n)))) ∧
                (geometryFault s.cal.limits.minZones g = none →
                  exec .writeGeometry s = State.accepting s r rest { s.cal with geometry := some g })) ∧
        (r.code = codeWriteChannel →
          (r.payload = [] → exec .writeChannel s = .next (boundary (s.answered r rest .malformed []))) ∧
          (∀ (i : Nat) (p : List Byte), r.payload = natBytes 1 i ++ p → 8 ≤ i → i < 256 →
            exec .writeChannel s = .next (boundary (s.answered r rest .badIndex []))) ∧
          ∀ (ch : Fin 8) (p : List Byte),
            r.payload = natBytes 1 ch ++ p →
              (p.length ≠ 13 → exec .writeChannel s = .next (boundary (s.answered r rest .malformed []))) ∧
              ∀ c : ChannelRecord,
                p = channelBytes c → -8388608 ≤ c.zeroCal → c.zeroCal ≤ 8388607 →
                  c.zeroRange < 16777216 → c.gain < 4294967296 → c.threshold < 16777216 →
                    (∀ f,
                      FirstFails
                        [(1 ≤ c.gain, 2), (c.zeroRange ≤ 1048575, 3), (1 ≤ c.threshold ∧ c.threshold ≤ 8388607, 4)]
                        f →
                        exec .writeChannel s = .next (boundary (s.answered r rest .badValue (natBytes 1 f)))) ∧
                    (1 ≤ c.gain → c.zeroRange ≤ 1048575 → 1 ≤ c.threshold → c.threshold ≤ 8388607 →
                      ∃ u,
                        exec .writeChannel s =
                            State.accepting u r rest { s.cal with channels := s.cal.channels.set ch (some c) } ∧
                          u = { s with zones := u.zones } ∧
                          (∀ z : Fin 4, u.zones[z].windows = s.zones[z].windows) ∧
                          ∀ i : Fin 8,
                            u.zones[channelZone i].channel (channelRail i) =
                              if i = ch then
                                { s.zones[channelZone i].channel (channelRail i) with
                                  baseline := 8 * c.zeroCal, zeroFault := false, blockCount := 0, blockSum := 0
                                  run := none }
                              else s.zones[channelZone i].channel (channelRail i))) ∧
        (r.code = codeWriteSpeedCurve →
          (r.payload.length ≠ 32 →
            exec .writeSpeedCurve s = .next (boundary (s.answered r rest .malformed []))) ∧
          ∀ k : Vector CurvePoint 8,
            r.payload = curveBytes k → (∀ i : Fin 8, k[i].v < 65536 ∧ k[i].k < 65536) →
              (∀ n, curveFault k = some n →
                exec .writeSpeedCurve s = .next (boundary (s.answered r rest .badValue (natBytes 1 n)))) ∧
              (curveFault k = none → exec .writeSpeedCurve s = State.accepting s r rest { s.cal with curve := some k })) ∧
        (r.code = codeWriteLimits →
          (r.payload.length ≠ 14 → exec .writeLimits s = .next (boundary (s.answered r rest .malformed []))) ∧
          ∀ l : Limits,
            r.payload = limitsBytes l →
              l.trimEighths < 256 ∧ l.nMin < 256 ∧ l.minZones < 256 ∧ l.spreadLimit < 256 ∧ l.tol < 256 ∧
                  l.nOn < 256 ∧ l.nOff < 256 ∧ l.vMin < 65536 ∧ l.vMax < 65536 ∧ l.accelLimit < 256 ∧
                  l.lrLimit < 256 ∧ l.endLimit < 256 →
                (∀ n, limitsFault s.cal.maxMinZones l = some n →
                  exec .writeLimits s = .next (boundary (s.answered r rest .badValue (natBytes 1 n)))) ∧
                (limitsFault s.cal.maxMinZones l = none →
                  exec .writeLimits s = State.accepting s r rest { s.cal with limits := l, origin := .written }))

/-- A Geometry Record that passes the checks of R8 has Z in 1..4 and at least min_zones, every field in its range, both pairs
and every zone shorter than min_axle_spacing, every zone end within 500..c_E − 500 and the zones in order without overlap;
and only such a record passes them (R5, R8). A record that does not pass reports the field number of the first step of R8 that
fails; a Speed Curve, and Limits, pass when every check of R116, and of R117, holds, and otherwise report the field number of
the first that fails; min_zones is judged against Z of the Geometry Record, or 4 while it is absent (R116, R117). -/
def Obligations.GeometryChecksOrderTheSection : Prop :=
  (∀ (minZones n : Nat) (g : GeometryRecord),
    geometryFault minZones g = some n ↔
      FirstFails
        ([(1 ≤ g.zones.length ∧ g.zones.length ≤ 4, 1), (minZones ≤ g.zones.length, 1),
            (1000 ≤ g.fScan ∧ g.fScan ≤ 8000, 2), (300 ≤ g.dW ∧ g.dW ≤ 2000, 3), (300 ≤ g.dE ∧ g.dE ≤ 2000, 4),
            (2000 ≤ g.cE ∧ g.cE ≤ 30000, 5), (800 ≤ g.minAxleSpacing ∧ g.minAxleSpacing ≤ 3000, 6),
            (g.dW < g.minAxleSpacing, 3), (g.dE < g.minAxleSpacing, 4)] ++
          (g.zones.zipIdx.flatMap fun x =>
            [((x.2 = 0 → 500 ≤ x.1.a) ∧ ∀ y, x.2 ≠ 0 → g.zones[x.2 - 1]? = some y → y.b ≤ x.1.a, 5 + 2 * (x.2 + 1)),
              (300 ≤ (x.1.b : Int) - x.1.a ∧ (x.1.b : Int) - x.1.a ≤ 1500, 6 + 2 * (x.2 + 1)),
              ((x.1.b : Int) - x.1.a < g.minAxleSpacing, 6 + 2 * (x.2 + 1))]) ++
          [(∀ y, g.zones.getLast? = some y → y.b + 500 ≤ g.cE, 5)])
        n) ∧
  (∀ k : Vector CurvePoint 8,
    (curveFault k = none ↔
      (∀ i : Fin 8, k[i].v ≤ 2000 ∧ 16384 ≤ k[i].k ∧ k[i].k ≤ 65535) ∧
        ∀ i : Fin 7, k[i.val].v < k[i.val + 1].v) ∧
    ∀ n,
      curveFault k = some n ↔
        FirstFails
          ((List.finRange 8).flatMap fun i =>
            [(k[i].v ≤ 2000, 2 * i.val + 1), (∀ j : Fin 8, j.val + 1 = i.val → k[j].v < k[i].v, 2 * i.val + 1),
              (16384 ≤ k[i].k ∧ k[i].k ≤ 65535, 2 * i.val + 2)])
          n) ∧
  (∀ (z : Nat) (l : Limits) (checks : List (Prop × Nat)),
    checks =
        [(l.trimEighths ≤ 3, 1), (4 ≤ l.nMin ∧ l.nMin ≤ 64, 2), (1 ≤ l.minZones ∧ l.minZones ≤ z, 3),
          (1 ≤ l.spreadLimit ∧ l.spreadLimit ≤ 255, 4), (1 ≤ l.tol ∧ l.tol ≤ 255, 5), (2 ≤ l.nOn ∧ l.nOn ≤ 15, 6),
          (2 ≤ l.nOff ∧ l.nOff ≤ 15, 7), (10 ≤ l.vMin ∧ l.vMin ≤ 300, 8), (l.vMin + 1 ≤ l.vMax ∧ l.vMax ≤ 1500, 9),
          (1 ≤ l.accelLimit ∧ l.accelLimit ≤ 32, 10), (1 ≤ l.lrLimit ∧ l.lrLimit ≤ 255, 11),
          (1 ≤ l.endLimit ∧ l.endLimit ≤ 255, 12)] →
      (limitsFault z l = none ↔ ∀ c ∈ checks, c.1) ∧ ∀ n, limitsFault z l = some n ↔ FirstFails checks n) ∧
  (∀ c : Calibration,
    (c.geometry = none → c.maxMinZones = 4) ∧ ∀ g, c.geometry = some g → c.maxMinZones = g.zones.length) ∧
  ∀ (minZones : Nat) (g : GeometryRecord),
    geometryFault minZones g = none ↔
      (1 ≤ g.zones.length ∧ g.zones.length ≤ 4 ∧ minZones ≤ g.zones.length ∧ 1000 ≤ g.fScan ∧ g.fScan ≤ 8000 ∧
          300 ≤ g.dW ∧ g.dW ≤ 2000 ∧ 300 ≤ g.dE ∧ g.dE ≤ 2000 ∧ 2000 ≤ g.cE ∧ g.cE ≤ 30000 ∧
          800 ≤ g.minAxleSpacing ∧ g.minAxleSpacing ≤ 3000 ∧ g.dW < g.minAxleSpacing ∧ g.dE < g.minAxleSpacing) ∧
        (∀ z ∈ g.zones,
          500 ≤ z.a ∧ z.a + 300 ≤ z.b ∧ z.b ≤ z.a + 1500 ∧ z.b < z.a + g.minAxleSpacing ∧ z.b + 500 ≤ g.cE) ∧
          g.zones.Pairwise fun y z => y.b ≤ z.a

/-- COMMIT CALIBRATION past the protection: MALFORMED with a payload, NOT_READY, FULL at counter 65,535, and STORE_FAULT with
its cause where the store refuses the counter word, each changing nothing else; an accepted commit reserves its place,
writes the incremented counter and captures the image, and places no answer yet (R120, R121, R185). COMMIT_COMPLETE ends
it: verified, the image is held and CAL_PENDING clears; failed, the image is damaged and STORE_FAULT is raised; the
reservation becomes the response (R122). With no commit in flight it does nothing (notes/assumptions/1.md); the store's
answers are operands (notes/assumptions/14.md). -/
def Obligations.CommitsWriteTheStore : Prop :=
  (∀ (s : State) (r : Request) (rest : List Request) (w : Bool),
      s.CanExecute r rest → r.code = codeCommitCalibration → s.calEn = true →
        s.train.state = .idle ∨ s.train.state = .ignoring → s.cal.committing = none →
          (r.payload ≠ [] → exec (.commitCalibration w) s = .next (boundary (s.answered r rest .malformed []))) ∧
          (r.payload = [] → s.part = .notReady →
            exec (.commitCalibration w) s = .next (boundary (s.answered r rest .notReady []))) ∧
          ∀ (g : GeometryRecord) (k : Vector CurvePoint 8),
            r.payload = [] → s.part = .ready → s.cal.geometry = some g → s.cal.curve = some k →
              (65535 ≤ s.cal.counter →
                exec (.commitCalibration w) s = .next (boundary (s.answered r rest .full []))) ∧
              (s.cal.counter < 65535 →
                exec (.commitCalibration false) s =
                    .next (boundary ((raiseCause .storeFault 1 s).answered r rest .storeFault [])) ∧
                  exec (.commitCalibration true) s =
                    .next
                      (boundary
                        { s with
                          requests := rest
                          cal := { s.cal with counter := s.cal.counter + 1, committing := some r.tag }
                          store :=
                            { word := some (s.cal.counter + 1)
                              image := .writing (imageBytes g s.cal.channels k s.cal.limits) } }))) ∧
    ∀ (s : State) (tag : Byte) (bytes : List Byte),
        (s.cal.committing = none → exec (.commitComplete true) s = .next s ∧ exec (.commitComplete false) s = .next s) ∧
        (s.cal.committing = some tag → s.store.image = .writing bytes →
          exec (.commitComplete true) s =
              .next
                (boundary
                  { s with
                    cal := { s.cal with committing := none, calPending := false }
                    store := { s.store with image := .held bytes }
                    link := { s.link with responses := s.link.responses ++ [{ tag := tag, code := codeCommitCalibration, status := .ok, payload := [] }] } }) ∧
            exec (.commitComplete false) s =
              .next
                (boundary
                  { s with
                    cal := { s.cal with committing := none }
                    store := { s.store with image := .damaged }
                    notices := s.notices.raise .storeFault 1
                    link := { s.link with responses := s.link.responses ++ [{ tag := tag, code := codeCommitCalibration, status := .storeFault, payload := [] }] } }))

/-! ## Invariants and rules of the whole machine -/

/-- Every invariant holds at reset. -/
def Obligations.InvariantsHoldAtReset : Prop :=
  State.Sound State.reset

/-- A transmitter that is IDLE with RL_HOLD released has nothing to send: kept by every step (R158, R159). -/
def Obligations.StepsLeaveNothingUnsent : Prop :=
  ∀ s t : State, s.Conserving → step s = .next t → t.Conserving

/-- No queue or list ever holds more than its capacity, a reservation counting as a response: kept by every step (R65, R89,
R121, R129, R145, R155 to R157, R166). -/
def Obligations.StepsKeepEveryCapacity : Prop :=
  ∀ s t : State, s.QueuesFit ∧ s.ListsFit → step s = .next t → t.QueuesFit ∧ t.ListsFit

/-- The axles on the section are always entries − backouts − exits + returns: kept by every step (R48, R64). -/
def Obligations.StepsKeepTheBoundsCounted : Prop :=
  ∀ s t : State, s.BoundsCount → step s = .next t → t.BoundsCount

/-- The axle records stay in ascending ordinal order up to highest, at most 4,095, with only axle flags and with an axle load
that is the sum of its rail loads; the vehicles stay in ascending sequence order below next_seq, and at most four wait for
an identity: kept by every step (R64, R65, R77, R111, R129, R150). -/
def Obligations.StepsKeepRecordsInOrder : Prop :=
  (∀ s t : State, s.AxlesSound → step s = .next t → t.AxlesSound) ∧
    ∀ s t : State, s.VehiclesOrdered → step s = .next t → t.VehiclesOrdered

/-- The context lasts exactly as long as the train, the quiet timer runs exactly in RUNNING, STANDING and IGNORING, windows
are held only in RUNNING, the silence timer runs exactly while SYNCED: kept by every step (R18, R47, R55, R99, R101). -/
def Obligations.StepsKeepTimersWithTheirStates : Prop :=
  ∀ s t : State, s.TimersFollow → step s = .next t → t.TimersFollow

/-- Every working table that is held passes its checks, the Geometry Record and the Limits agree, outside STARTING the part is
READY exactly when its tables are valid, and a channel without a Channel Record has an empty partial block and an empty
presence run: kept by every step (R9, R11, R81, R82, R115 to R117, R126). -/
def Obligations.StepsKeepTablesAndReadinessSound : Prop :=
  ∀ s t : State, s.TablesSound → step s = .next t → t.TablesSound

/-- The working adjustment counter is the store word and at most 65,535, and no step lowers it (R120); a kind at level 0 is
never pending, a pending one has a count of 1 to 255 (R162, R163): kept by every step. -/
def Obligations.StepsKeepCounterAndNoticesSound : Prop :=
  ∀ s t : State,
    s.CounterAgrees ∧ s.NoticesSound → step s = .next t →
      t.CounterAgrees ∧ t.NoticesSound ∧ s.cal.counter ≤ t.cal.counter ∧ t.cal.counter ≤ s.cal.counter + 1

/-- Outside STARTING and apart from a reset, the metrological tables change only by one of the four writes, executed with
CAL_EN asserted, no train and no commit in flight (R10, R118). -/
def Obligations.TablesChangeOnlyUnderProtection : Prop :=
  ∀ (c : Instr) (s t : State),
    exec c s = .next t → s.part ≠ .starting → c ≠ .powerOnReset → t.cal.tables ≠ s.cal.tables →
      s.calEn = true ∧ s.busyTrain = false ∧ s.cal.committing = none ∧
        ∃ r rest,
          s.requests = r :: rest ∧
            r.code ∈ [codeWriteGeometry, codeWriteChannel, codeWriteSpeedCurve, codeWriteLimits]

/-- While a train lasts its number, direction and start scan do not change, an end reason and an end scan once set are not
replaced, and the train started by a step carries the next train number (R47, R49, R51, R58). -/
def Obligations.TrainIdentityIsFixed : Prop :=
  ∀ s t : State,
    s.TimersFollow → step s = .next t →
      (∀ a b, s.train.ctx = some a → t.train.ctx = some b →
          b.number = a.number ∧ b.direction = a.direction ∧ b.startScan = a.startScan ∧
            (∀ e, a.endReason = some e → b.endReason = some e) ∧ ∀ e, a.endScan = some e → b.endScan = some e) ∧
        ∀ b, s.train.ctx = none → t.train.ctx = some b →
          b.number = s.train.nextNumber ∧ b.startScan = s.rx.time ∧ s.part = .ready

/-- A statistics counter never decreases, and its selection stays, except by a command that executes WRITE COUNTER, RESET
COUNTERS or RESTART, which then leaves the Request Buffer, and by a reset (R167, R174, R177). -/
def Obligations.CountersNeverDecrease : Prop :=
  ∀ (c : Instr) (s t : State) (i : Fin 4),
    exec c s = .next t → c ≠ .powerOnReset →
      (∀ r rest, s.requests = r :: rest → r.code ∈ [codeWriteCounter, codeResetCounters, codeRestart] →
        s.requests.length ≤ t.requests.length) →
        s.counters[i].value ≤ 4294967295 →
          s.counters[i].value ≤ t.counters[i].value ∧ t.counters[i].value ≤ 4294967295 ∧
            (s.counters[i].overflow = true → t.counters[i].overflow = true) ∧
            t.counters[i].selection = s.counters[i].selection

/-- Scan time, the last scan number and the synchronization change only at an accepted SCAN frame, by 1 to 256 scans, and at a
loss of sync, which advances no scan (R18 to R23, R27). -/
def Obligations.TimeAdvancesOnlyAtScans : Prop :=
  ∀ (c : Instr) (s t : State),
    exec c s = .next t → c ≠ .powerOnReset →
      (t.rx.time ≠ s.rx.time →
        s.part ≠ .starting ∧ (∃ d : Nat, 1 ≤ d ∧ d ≤ 256 ∧ t.rx.time = s.rx.time + BitVec.ofNat 32 d) ∧
          ∃ number samples p check,
            (c = .scanFrame p check ∨ c = .undefinedKindFrame kindScan p check) ∧
              examine s.cal.geometry kindScan p check = .accepted (.scan number samples) ∧ t.rx.lastScan = number ∧
                t.rx.synced = true) ∧
      (t.rx.time = s.rx.time →
        t.rx.lastScan = s.rx.lastScan ∧ t.rx.syncScan = s.rx.syncScan ∧
          (c ≠ .silenceTimeout → t.rx.synced = s.rx.synced))

/-- While RL_HOLD is and stays asserted no frame starts: what is going out goes on or ends (R158). -/
def Obligations.NoFrameStartsUnderHold : Prop :=
  ∀ (c : Instr) (s t : State),
    exec c s = .next t → c ≠ .powerOnReset → s.hold = true → t.hold = true →
      t.link.sending = s.link.sending ∨ (t.link.sending = none ∧ ∃ w, c = .frameEnd w)
end

