-- ==== Sys2Proof/Laws/Claims.lean ====
section
/-! SUPPORT. The small lemmas of the terms of Safety.lean: counts that follow one another, causes in turn, the first failing
check of a table, and the identities that the end of a train resolves. -/

namespace Sys2Proof.Machine

/-! ## Counts -/

@[simp] theorem Counter.counted_selection (n : Nat) (c : Counter) : (c.counted n).selection = c.selection := rfl

@[simp] theorem Counter.counted_previous (n : Nat) (c : Counter) : (c.counted n).previous = c.previous := rfl

@[simp] theorem Counter.counted_value (n : Nat) (c : Counter) : (c.counted n).value = min 4294967295 (c.value + n) := rfl

theorem Counter.counted_zero (c : Counter) (h : c.value ≤ 4294967295) : c.counted 0 = c := by
  have : ¬(c.value < 4294967295 ∧ 4294967295 ≤ c.value) := by omega
  simp [Counter.counted, this, h]

/-- Occurrences in two goes are their sum in one. -/
theorem Counter.counted_counted (m n : Nat) (c : Counter) : (c.counted m).counted n = c.counted (m + n) := by
  unfold Counter.counted
  simp only [Counter.mk.injEq, and_true]
  refine ⟨by omega, ?_⟩
  cases c.overflow
  · rw [Bool.eq_iff_iff]
    simp only [Bool.false_or, Bool.or_eq_true, decide_eq_true_eq]
    omega
  · simp

/-- Nothing counted and no cause raised. -/
theorem State.Counts.refl (s : State) : s.Counts s (fun _ => 0) [] :=
  ⟨fun i h => (Counter.counted_zero s.counters[i] h).symm, rfl, fun _ _ _ => rfl⟩

/-- Counts that follow one another add up, where the second reads nothing that the first changes. -/
theorem State.Counts.trans {s t u : State} {n m : Counter → Nat} {e f : List NoticeKind} (h : s.Counts t n e)
    (k : t.Counts u m f) (hm : ∀ (c : Counter) (j : Nat), m (c.counted j) = m c) :
    s.Counts u (fun c => n c + m c) (e ++ f) := by
  refine ⟨fun i hi => ?_, k.2.1.trans h.2.1, fun x hx hn => ?_⟩
  · have ht := h.1 i hi
    have hv : t.counters[i].value ≤ 4294967295 := by
      rw [ht, Counter.counted_value]
      omega
    rw [k.1 i hv, ht, hm, Counter.counted_counted]
  · simp only [List.mem_append, not_or] at hn
    exact (k.2.2 x hx hn.2).trans (h.2.2 x hx hn.1)

@[simp] theorem Counter.ofEvent_counted (e : CounterEvent) (n j : Nat) (c : Counter) :
    (c.counted j).ofEvent e n = c.ofEvent e n := rfl

/-! ## Causes in turn -/

@[simp] theorem NoticeEntry.after_nil (level : Nat) (e : NoticeEntry) : e.after level [] = e := rfl

/-- Causes after causes. -/
theorem NoticeEntry.after_append (level : Nat) (as bs : List Nat) (e : NoticeEntry) :
    e.after level (as ++ bs) = (e.after level as).after level bs := by
  rcases bs.eq_nil_or_concat with rfl | ⟨bs, b, rfl⟩
  · simp
  rcases as.eq_nil_or_concat with rfl | ⟨as, a, rfl⟩
  · simp
  simp only [NoticeEntry.after, List.concat_eq_append, ← List.append_assoc, List.getLast?_concat, List.length_append,
    List.length_singleton, NoticeEntry.mk.injEq, and_true]
  refine ⟨?_, by omega⟩
  cases e.pending <;> cases (level != 0) <;> rfl

/-! ## Tables of checks -/

/-- The field that a table of decided checks reports is that of the first that fails. -/
theorem firstFailing_eq_some (l : List (Bool × Nat)) (n : Nat) :
    firstFailing l = some n ↔ FirstFails (l.map fun c => (c.1 = true, c.2)) n := by
  induction l with
  | nil => simp [firstFailing, FirstFails]
  | cons c l ih =>
    obtain ⟨b, k⟩ := c
    cases b
    · constructor
      · intro h
        simp [firstFailing] at h
        exact ⟨[], false = true, l.map fun c => (c.1 = true, c.2), by simp [h], by simp, by simp⟩
      · rintro ⟨before, p, after, he, hb, hp⟩
        rcases before with _ | ⟨x, before⟩
        · simp at he
          simp [firstFailing, he.1.2]
        · simp at he
          have := hb x (by simp)
          simp [← he.1] at this
    · simp only [firstFailing, List.map_cons]
      constructor
      · intro h
        obtain ⟨before, p, after, he, hb, hp⟩ := ih.1 (by simpa [firstFailing] using h)
        exact ⟨(true = true, k) :: before, p, after, by simp [he], by simpa using hb, hp⟩
      · rintro ⟨before, p, after, he, hb, hp⟩
        rcases before with _ | ⟨x, before⟩
        · simp at he
          exact absurd he.1.1 hp
        · simp at he
          simpa [firstFailing] using ih.2 ⟨before, p, after, he.2, fun c h => hb c (by simp [h]), hp⟩

/-! ## Identities at the end of a train -/

theorem Vehicle.resolveAtEnding_eq (list : List ConsistEntry) (v : Vehicle) :
    v.resolveAtEnding list = if v.isWaiting then v.resolveFrom list .idMissing else v := by
  unfold Vehicle.resolveAtEnding Vehicle.resolveFrom
  split
  · cases entryAt list v.sequence with
    | none => rfl
    | some e =>
      cases h : typeMismatch e v <;> simp [Vehicle.resolvePresent, vehicleFlagIf, h]
  · rfl

/-- The entry into ENDING resolves every waiting vehicle (R152). -/
theorem resolveWaiting_list (s : State) :
    (resolveWaiting s).asm.list = s.asm.list.map (Vehicle.resolveAtEnding s.consist) := by
  simp [resolveWaiting, Vehicle.resolveAtEnding_eq]

end Sys2Proof.Machine
end

