-- ==== Sys2Proof/Laws/State.lean ====
section
/-! SUPPORT. One lemma per field of State for each elementary update: what it leaves alone, and what it writes. -/

namespace Sys2Proof.Machine

variable (s : State)

/-! ## raiseCause -/

@[simp] theorem raiseCause_part (k : NoticeKind) (n : Nat) : (raiseCause k n s).part = s.part := rfl
@[simp] theorem raiseCause_calEn (k : NoticeKind) (n : Nat) : (raiseCause k n s).calEn = s.calEn := rfl
@[simp] theorem raiseCause_hold (k : NoticeKind) (n : Nat) : (raiseCause k n s).hold = s.hold := rfl
@[simp] theorem raiseCause_rx (k : NoticeKind) (n : Nat) : (raiseCause k n s).rx = s.rx := rfl
@[simp] theorem raiseCause_west (k : NoticeKind) (n : Nat) : (raiseCause k n s).west = s.west := rfl
@[simp] theorem raiseCause_east (k : NoticeKind) (n : Nat) : (raiseCause k n s).east = s.east := rfl
@[simp] theorem raiseCause_pace (k : NoticeKind) (n : Nat) : (raiseCause k n s).pace = s.pace := rfl
@[simp] theorem raiseCause_train (k : NoticeKind) (n : Nat) : (raiseCause k n s).train = s.train := rfl
@[simp] theorem raiseCause_axles (k : NoticeKind) (n : Nat) : (raiseCause k n s).axles = s.axles := rfl
@[simp] theorem raiseCause_zones (k : NoticeKind) (n : Nat) : (raiseCause k n s).zones = s.zones := rfl
@[simp] theorem raiseCause_cal (k : NoticeKind) (n : Nat) : (raiseCause k n s).cal = s.cal := rfl
@[simp] theorem raiseCause_store (k : NoticeKind) (n : Nat) : (raiseCause k n s).store = s.store := rfl
@[simp] theorem raiseCause_asm (k : NoticeKind) (n : Nat) : (raiseCause k n s).asm = s.asm := rfl
@[simp] theorem raiseCause_consist (k : NoticeKind) (n : Nat) : (raiseCause k n s).consist = s.consist := rfl
@[simp] theorem raiseCause_link (k : NoticeKind) (n : Nat) : (raiseCause k n s).link = s.link := rfl
@[simp] theorem raiseCause_notices (k : NoticeKind) (n : Nat) : (raiseCause k n s).notices = s.notices.raise k n := rfl
@[simp] theorem raiseCause_requests (k : NoticeKind) (n : Nat) : (raiseCause k n s).requests = s.requests := rfl
@[simp] theorem raiseCause_settings (k : NoticeKind) (n : Nat) : (raiseCause k n s).settings = s.settings := rfl
@[simp] theorem raiseCause_counters (k : NoticeKind) (n : Nat) : (raiseCause k n s).counters = s.counters := rfl
@[simp] theorem raiseCause_pending (k : NoticeKind) (n : Nat) : (raiseCause k n s).pending = s.pending := rfl

/-! ## updateCounters -/

@[simp] theorem updateCounters_part (f : Counter → Counter × Bool) : (updateCounters f s).part = s.part := rfl
@[simp] theorem updateCounters_calEn (f : Counter → Counter × Bool) : (updateCounters f s).calEn = s.calEn := rfl
@[simp] theorem updateCounters_hold (f : Counter → Counter × Bool) : (updateCounters f s).hold = s.hold := rfl
@[simp] theorem updateCounters_rx (f : Counter → Counter × Bool) : (updateCounters f s).rx = s.rx := rfl
@[simp] theorem updateCounters_west (f : Counter → Counter × Bool) : (updateCounters f s).west = s.west := rfl
@[simp] theorem updateCounters_east (f : Counter → Counter × Bool) : (updateCounters f s).east = s.east := rfl
@[simp] theorem updateCounters_pace (f : Counter → Counter × Bool) : (updateCounters f s).pace = s.pace := rfl
@[simp] theorem updateCounters_train (f : Counter → Counter × Bool) : (updateCounters f s).train = s.train := rfl
@[simp] theorem updateCounters_axles (f : Counter → Counter × Bool) : (updateCounters f s).axles = s.axles := rfl
@[simp] theorem updateCounters_zones (f : Counter → Counter × Bool) : (updateCounters f s).zones = s.zones := rfl
@[simp] theorem updateCounters_cal (f : Counter → Counter × Bool) : (updateCounters f s).cal = s.cal := rfl
@[simp] theorem updateCounters_store (f : Counter → Counter × Bool) : (updateCounters f s).store = s.store := rfl
@[simp] theorem updateCounters_asm (f : Counter → Counter × Bool) : (updateCounters f s).asm = s.asm := rfl
@[simp] theorem updateCounters_consist (f : Counter → Counter × Bool) : (updateCounters f s).consist = s.consist := rfl
@[simp] theorem updateCounters_link (f : Counter → Counter × Bool) : (updateCounters f s).link = s.link := rfl
@[simp] theorem updateCounters_requests (f : Counter → Counter × Bool) :
    (updateCounters f s).requests = s.requests :=
  rfl
@[simp] theorem updateCounters_settings (f : Counter → Counter × Bool) :
    (updateCounters f s).settings = s.settings :=
  rfl
@[simp] theorem updateCounters_counters (f : Counter → Counter × Bool) :
    (updateCounters f s).counters = #v[(f s.counters[0]).1, (f s.counters[1]).1, (f s.counters[2]).1, (f s.counters[3]).1] :=
  rfl
@[simp] theorem updateCounters_pending (f : Counter → Counter × Bool) : (updateCounters f s).pending = s.pending := rfl

/-! ## countEvent -/

@[simp] theorem countEvent_part (e : CounterEvent) (n : Nat) : (countEvent e n s).part = s.part := rfl
@[simp] theorem countEvent_calEn (e : CounterEvent) (n : Nat) : (countEvent e n s).calEn = s.calEn := rfl
@[simp] theorem countEvent_hold (e : CounterEvent) (n : Nat) : (countEvent e n s).hold = s.hold := rfl
@[simp] theorem countEvent_rx (e : CounterEvent) (n : Nat) : (countEvent e n s).rx = s.rx := rfl
@[simp] theorem countEvent_west (e : CounterEvent) (n : Nat) : (countEvent e n s).west = s.west := rfl
@[simp] theorem countEvent_east (e : CounterEvent) (n : Nat) : (countEvent e n s).east = s.east := rfl
@[simp] theorem countEvent_pace (e : CounterEvent) (n : Nat) : (countEvent e n s).pace = s.pace := rfl
@[simp] theorem countEvent_train (e : CounterEvent) (n : Nat) : (countEvent e n s).train = s.train := rfl
@[simp] theorem countEvent_axles (e : CounterEvent) (n : Nat) : (countEvent e n s).axles = s.axles := rfl
@[simp] theorem countEvent_zones (e : CounterEvent) (n : Nat) : (countEvent e n s).zones = s.zones := rfl
@[simp] theorem countEvent_cal (e : CounterEvent) (n : Nat) : (countEvent e n s).cal = s.cal := rfl
@[simp] theorem countEvent_store (e : CounterEvent) (n : Nat) : (countEvent e n s).store = s.store := rfl
@[simp] theorem countEvent_asm (e : CounterEvent) (n : Nat) : (countEvent e n s).asm = s.asm := rfl
@[simp] theorem countEvent_consist (e : CounterEvent) (n : Nat) : (countEvent e n s).consist = s.consist := rfl
@[simp] theorem countEvent_link (e : CounterEvent) (n : Nat) : (countEvent e n s).link = s.link := rfl
@[simp] theorem countEvent_requests (e : CounterEvent) (n : Nat) : (countEvent e n s).requests = s.requests := rfl
@[simp] theorem countEvent_settings (e : CounterEvent) (n : Nat) : (countEvent e n s).settings = s.settings := rfl
@[simp] theorem countEvent_pending (e : CounterEvent) (n : Nat) : (countEvent e n s).pending = s.pending := rfl

/-! ## countInBand -/

@[simp] theorem countInBand_part (v : Nat) : (countInBand v s).part = s.part := rfl
@[simp] theorem countInBand_calEn (v : Nat) : (countInBand v s).calEn = s.calEn := rfl
@[simp] theorem countInBand_hold (v : Nat) : (countInBand v s).hold = s.hold := rfl
@[simp] theorem countInBand_rx (v : Nat) : (countInBand v s).rx = s.rx := rfl
@[simp] theorem countInBand_west (v : Nat) : (countInBand v s).west = s.west := rfl
@[simp] theorem countInBand_east (v : Nat) : (countInBand v s).east = s.east := rfl
@[simp] theorem countInBand_pace (v : Nat) : (countInBand v s).pace = s.pace := rfl
@[simp] theorem countInBand_train (v : Nat) : (countInBand v s).train = s.train := rfl
@[simp] theorem countInBand_axles (v : Nat) : (countInBand v s).axles = s.axles := rfl
@[simp] theorem countInBand_zones (v : Nat) : (countInBand v s).zones = s.zones := rfl
@[simp] theorem countInBand_cal (v : Nat) : (countInBand v s).cal = s.cal := rfl
@[simp] theorem countInBand_store (v : Nat) : (countInBand v s).store = s.store := rfl
@[simp] theorem countInBand_asm (v : Nat) : (countInBand v s).asm = s.asm := rfl
@[simp] theorem countInBand_consist (v : Nat) : (countInBand v s).consist = s.consist := rfl
@[simp] theorem countInBand_link (v : Nat) : (countInBand v s).link = s.link := rfl
@[simp] theorem countInBand_requests (v : Nat) : (countInBand v s).requests = s.requests := rfl
@[simp] theorem countInBand_settings (v : Nat) : (countInBand v s).settings = s.settings := rfl
@[simp] theorem countInBand_pending (v : Nat) : (countInBand v s).pending = s.pending := rfl

/-! ## sampleOccupancy -/

@[simp] theorem sampleOccupancy_part : (sampleOccupancy s).part = s.part := rfl
@[simp] theorem sampleOccupancy_calEn : (sampleOccupancy s).calEn = s.calEn := rfl
@[simp] theorem sampleOccupancy_hold : (sampleOccupancy s).hold = s.hold := rfl
@[simp] theorem sampleOccupancy_rx : (sampleOccupancy s).rx = s.rx := rfl
@[simp] theorem sampleOccupancy_west : (sampleOccupancy s).west = s.west := rfl
@[simp] theorem sampleOccupancy_east : (sampleOccupancy s).east = s.east := rfl
@[simp] theorem sampleOccupancy_pace : (sampleOccupancy s).pace = s.pace := rfl
@[simp] theorem sampleOccupancy_train : (sampleOccupancy s).train = s.train := rfl
@[simp] theorem sampleOccupancy_axles : (sampleOccupancy s).axles = s.axles := rfl
@[simp] theorem sampleOccupancy_zones : (sampleOccupancy s).zones = s.zones := rfl
@[simp] theorem sampleOccupancy_cal : (sampleOccupancy s).cal = s.cal := rfl
@[simp] theorem sampleOccupancy_store : (sampleOccupancy s).store = s.store := rfl
@[simp] theorem sampleOccupancy_asm : (sampleOccupancy s).asm = s.asm := rfl
@[simp] theorem sampleOccupancy_consist : (sampleOccupancy s).consist = s.consist := rfl
@[simp] theorem sampleOccupancy_link : (sampleOccupancy s).link = s.link := rfl
@[simp] theorem sampleOccupancy_requests : (sampleOccupancy s).requests = s.requests := rfl
@[simp] theorem sampleOccupancy_settings : (sampleOccupancy s).settings = s.settings := rfl
@[simp] theorem sampleOccupancy_pending : (sampleOccupancy s).pending = s.pending := rfl

/-! ## modifyCtx -/

@[simp] theorem modifyCtx_part (f : TrainContext → TrainContext) : (modifyCtx f s).part = s.part := rfl
@[simp] theorem modifyCtx_calEn (f : TrainContext → TrainContext) : (modifyCtx f s).calEn = s.calEn := rfl
@[simp] theorem modifyCtx_hold (f : TrainContext → TrainContext) : (modifyCtx f s).hold = s.hold := rfl
@[simp] theorem modifyCtx_rx (f : TrainContext → TrainContext) : (modifyCtx f s).rx = s.rx := rfl
@[simp] theorem modifyCtx_west (f : TrainContext → TrainContext) : (modifyCtx f s).west = s.west := rfl
@[simp] theorem modifyCtx_east (f : TrainContext → TrainContext) : (modifyCtx f s).east = s.east := rfl
@[simp] theorem modifyCtx_pace (f : TrainContext → TrainContext) : (modifyCtx f s).pace = s.pace := rfl
@[simp] theorem modifyCtx_train (f : TrainContext → TrainContext) :
    (modifyCtx f s).train = { s.train with ctx := s.train.ctx.map f } :=
  rfl
@[simp] theorem modifyCtx_axles (f : TrainContext → TrainContext) : (modifyCtx f s).axles = s.axles := rfl
@[simp] theorem modifyCtx_zones (f : TrainContext → TrainContext) : (modifyCtx f s).zones = s.zones := rfl
@[simp] theorem modifyCtx_cal (f : TrainContext → TrainContext) : (modifyCtx f s).cal = s.cal := rfl
@[simp] theorem modifyCtx_store (f : TrainContext → TrainContext) : (modifyCtx f s).store = s.store := rfl
@[simp] theorem modifyCtx_asm (f : TrainContext → TrainContext) : (modifyCtx f s).asm = s.asm := rfl
@[simp] theorem modifyCtx_consist (f : TrainContext → TrainContext) : (modifyCtx f s).consist = s.consist := rfl
@[simp] theorem modifyCtx_link (f : TrainContext → TrainContext) : (modifyCtx f s).link = s.link := rfl
@[simp] theorem modifyCtx_notices (f : TrainContext → TrainContext) : (modifyCtx f s).notices = s.notices := rfl
@[simp] theorem modifyCtx_requests (f : TrainContext → TrainContext) : (modifyCtx f s).requests = s.requests := rfl
@[simp] theorem modifyCtx_settings (f : TrainContext → TrainContext) : (modifyCtx f s).settings = s.settings := rfl
@[simp] theorem modifyCtx_counters (f : TrainContext → TrainContext) : (modifyCtx f s).counters = s.counters := rfl
@[simp] theorem modifyCtx_pending (f : TrainContext → TrainContext) : (modifyCtx f s).pending = s.pending := rfl

/-! ## startQuiet -/

@[simp] theorem startQuiet_part : (startQuiet s).part = s.part := rfl
@[simp] theorem startQuiet_calEn : (startQuiet s).calEn = s.calEn := rfl
@[simp] theorem startQuiet_hold : (startQuiet s).hold = s.hold := rfl
@[simp] theorem startQuiet_rx : (startQuiet s).rx = s.rx := rfl
@[simp] theorem startQuiet_west : (startQuiet s).west = s.west := rfl
@[simp] theorem startQuiet_east : (startQuiet s).east = s.east := rfl
@[simp] theorem startQuiet_pace : (startQuiet s).pace = s.pace := rfl
@[simp] theorem startQuiet_train :
    (startQuiet s).train = { s.train with quiet := some (s.rx.time + BitVec.ofNat 32 s.settings.quietTime) } :=
  rfl
@[simp] theorem startQuiet_axles : (startQuiet s).axles = s.axles := rfl
@[simp] theorem startQuiet_zones : (startQuiet s).zones = s.zones := rfl
@[simp] theorem startQuiet_cal : (startQuiet s).cal = s.cal := rfl
@[simp] theorem startQuiet_store : (startQuiet s).store = s.store := rfl
@[simp] theorem startQuiet_asm : (startQuiet s).asm = s.asm := rfl
@[simp] theorem startQuiet_consist : (startQuiet s).consist = s.consist := rfl
@[simp] theorem startQuiet_link : (startQuiet s).link = s.link := rfl
@[simp] theorem startQuiet_notices : (startQuiet s).notices = s.notices := rfl
@[simp] theorem startQuiet_requests : (startQuiet s).requests = s.requests := rfl
@[simp] theorem startQuiet_settings : (startQuiet s).settings = s.settings := rfl
@[simp] theorem startQuiet_counters : (startQuiet s).counters = s.counters := rfl
@[simp] theorem startQuiet_pending : (startQuiet s).pending = s.pending := rfl

/-! ## clearPairs -/

@[simp] theorem clearPairs_part : (clearPairs s).part = s.part := rfl
@[simp] theorem clearPairs_calEn : (clearPairs s).calEn = s.calEn := rfl
@[simp] theorem clearPairs_hold : (clearPairs s).hold = s.hold := rfl
@[simp] theorem clearPairs_rx : (clearPairs s).rx = s.rx := rfl
@[simp] theorem clearPairs_west : (clearPairs s).west = { s.west with pending := none } := rfl
@[simp] theorem clearPairs_east : (clearPairs s).east = { s.east with pending := none } := rfl
@[simp] theorem clearPairs_pace : (clearPairs s).pace = s.pace := rfl
@[simp] theorem clearPairs_train : (clearPairs s).train = s.train := rfl
@[simp] theorem clearPairs_axles : (clearPairs s).axles = s.axles := rfl
@[simp] theorem clearPairs_zones : (clearPairs s).zones = s.zones := rfl
@[simp] theorem clearPairs_cal : (clearPairs s).cal = s.cal := rfl
@[simp] theorem clearPairs_store : (clearPairs s).store = s.store := rfl
@[simp] theorem clearPairs_asm : (clearPairs s).asm = s.asm := rfl
@[simp] theorem clearPairs_consist : (clearPairs s).consist = s.consist := rfl
@[simp] theorem clearPairs_link : (clearPairs s).link = s.link := rfl
@[simp] theorem clearPairs_notices : (clearPairs s).notices = s.notices := rfl
@[simp] theorem clearPairs_requests : (clearPairs s).requests = s.requests := rfl
@[simp] theorem clearPairs_settings : (clearPairs s).settings = s.settings := rfl
@[simp] theorem clearPairs_counters : (clearPairs s).counters = s.counters := rfl
@[simp] theorem clearPairs_pending : (clearPairs s).pending = s.pending := rfl

/-! ## modifyAxle -/

@[simp] theorem modifyAxle_part (j : Nat) (f : AxleRecord → AxleRecord) : (modifyAxle j f s).part = s.part := rfl
@[simp] theorem modifyAxle_calEn (j : Nat) (f : AxleRecord → AxleRecord) : (modifyAxle j f s).calEn = s.calEn := rfl
@[simp] theorem modifyAxle_hold (j : Nat) (f : AxleRecord → AxleRecord) : (modifyAxle j f s).hold = s.hold := rfl
@[simp] theorem modifyAxle_rx (j : Nat) (f : AxleRecord → AxleRecord) : (modifyAxle j f s).rx = s.rx := rfl
@[simp] theorem modifyAxle_west (j : Nat) (f : AxleRecord → AxleRecord) : (modifyAxle j f s).west = s.west := rfl
@[simp] theorem modifyAxle_east (j : Nat) (f : AxleRecord → AxleRecord) : (modifyAxle j f s).east = s.east := rfl
@[simp] theorem modifyAxle_pace (j : Nat) (f : AxleRecord → AxleRecord) : (modifyAxle j f s).pace = s.pace := rfl
@[simp] theorem modifyAxle_train (j : Nat) (f : AxleRecord → AxleRecord) : (modifyAxle j f s).train = s.train := rfl
@[simp] theorem modifyAxle_axles (j : Nat) (f : AxleRecord → AxleRecord) :
    (modifyAxle j f s).axles = s.axles.modify j f :=
  rfl
@[simp] theorem modifyAxle_zones (j : Nat) (f : AxleRecord → AxleRecord) : (modifyAxle j f s).zones = s.zones := rfl
@[simp] theorem modifyAxle_cal (j : Nat) (f : AxleRecord → AxleRecord) : (modifyAxle j f s).cal = s.cal := rfl
@[simp] theorem modifyAxle_store (j : Nat) (f : AxleRecord → AxleRecord) : (modifyAxle j f s).store = s.store := rfl
@[simp] theorem modifyAxle_asm (j : Nat) (f : AxleRecord → AxleRecord) : (modifyAxle j f s).asm = s.asm := rfl
@[simp] theorem modifyAxle_consist (j : Nat) (f : AxleRecord → AxleRecord) :
    (modifyAxle j f s).consist = s.consist :=
  rfl
@[simp] theorem modifyAxle_link (j : Nat) (f : AxleRecord → AxleRecord) : (modifyAxle j f s).link = s.link := rfl
@[simp] theorem modifyAxle_notices (j : Nat) (f : AxleRecord → AxleRecord) :
    (modifyAxle j f s).notices = s.notices :=
  rfl
@[simp] theorem modifyAxle_requests (j : Nat) (f : AxleRecord → AxleRecord) :
    (modifyAxle j f s).requests = s.requests :=
  rfl
@[simp] theorem modifyAxle_settings (j : Nat) (f : AxleRecord → AxleRecord) :
    (modifyAxle j f s).settings = s.settings :=
  rfl
@[simp] theorem modifyAxle_counters (j : Nat) (f : AxleRecord → AxleRecord) :
    (modifyAxle j f s).counters = s.counters :=
  rfl
@[simp] theorem modifyAxle_pending (j : Nat) (f : AxleRecord → AxleRecord) :
    (modifyAxle j f s).pending = s.pending :=
  rfl

/-! ## disturbSection -/

@[simp] theorem disturbSection_part : (disturbSection s).part = s.part := rfl
@[simp] theorem disturbSection_calEn : (disturbSection s).calEn = s.calEn := rfl
@[simp] theorem disturbSection_hold : (disturbSection s).hold = s.hold := rfl
@[simp] theorem disturbSection_rx : (disturbSection s).rx = s.rx := rfl
@[simp] theorem disturbSection_west : (disturbSection s).west = s.west := rfl
@[simp] theorem disturbSection_east : (disturbSection s).east = s.east := rfl
@[simp] theorem disturbSection_pace : (disturbSection s).pace = s.pace := rfl
@[simp] theorem disturbSection_train : (disturbSection s).train = s.train := rfl
@[simp] theorem disturbSection_zones : (disturbSection s).zones = s.zones := rfl
@[simp] theorem disturbSection_cal : (disturbSection s).cal = s.cal := rfl
@[simp] theorem disturbSection_store : (disturbSection s).store = s.store := rfl
@[simp] theorem disturbSection_asm : (disturbSection s).asm = s.asm := rfl
@[simp] theorem disturbSection_consist : (disturbSection s).consist = s.consist := rfl
@[simp] theorem disturbSection_link : (disturbSection s).link = s.link := rfl
@[simp] theorem disturbSection_notices : (disturbSection s).notices = s.notices := rfl
@[simp] theorem disturbSection_requests : (disturbSection s).requests = s.requests := rfl
@[simp] theorem disturbSection_settings : (disturbSection s).settings = s.settings := rfl
@[simp] theorem disturbSection_counters : (disturbSection s).counters = s.counters := rfl
@[simp] theorem disturbSection_pending : (disturbSection s).pending = s.pending := rfl

/-! ## evaluateReadiness -/

@[simp] theorem evaluateReadiness_part : (evaluateReadiness s).part = if s.cal.ready then .ready else .notReady := rfl
@[simp] theorem evaluateReadiness_calEn : (evaluateReadiness s).calEn = s.calEn := rfl
@[simp] theorem evaluateReadiness_hold : (evaluateReadiness s).hold = s.hold := rfl
@[simp] theorem evaluateReadiness_rx : (evaluateReadiness s).rx = s.rx := rfl
@[simp] theorem evaluateReadiness_west : (evaluateReadiness s).west = s.west := rfl
@[simp] theorem evaluateReadiness_east : (evaluateReadiness s).east = s.east := rfl
@[simp] theorem evaluateReadiness_pace : (evaluateReadiness s).pace = s.pace := rfl
@[simp] theorem evaluateReadiness_train : (evaluateReadiness s).train = s.train := rfl
@[simp] theorem evaluateReadiness_axles : (evaluateReadiness s).axles = s.axles := rfl
@[simp] theorem evaluateReadiness_zones : (evaluateReadiness s).zones = s.zones := rfl
@[simp] theorem evaluateReadiness_cal : (evaluateReadiness s).cal = s.cal := rfl
@[simp] theorem evaluateReadiness_store : (evaluateReadiness s).store = s.store := rfl
@[simp] theorem evaluateReadiness_asm : (evaluateReadiness s).asm = s.asm := rfl
@[simp] theorem evaluateReadiness_consist : (evaluateReadiness s).consist = s.consist := rfl
@[simp] theorem evaluateReadiness_link : (evaluateReadiness s).link = s.link := rfl
@[simp] theorem evaluateReadiness_notices : (evaluateReadiness s).notices = s.notices := rfl
@[simp] theorem evaluateReadiness_requests : (evaluateReadiness s).requests = s.requests := rfl
@[simp] theorem evaluateReadiness_settings : (evaluateReadiness s).settings = s.settings := rfl
@[simp] theorem evaluateReadiness_counters : (evaluateReadiness s).counters = s.counters := rfl
@[simp] theorem evaluateReadiness_pending : (evaluateReadiness s).pending = s.pending := rfl

/-! ## placeResponse -/

@[simp] theorem placeResponse_part (r : Response) : (placeResponse r s).part = s.part := rfl
@[simp] theorem placeResponse_calEn (r : Response) : (placeResponse r s).calEn = s.calEn := rfl
@[simp] theorem placeResponse_hold (r : Response) : (placeResponse r s).hold = s.hold := rfl
@[simp] theorem placeResponse_rx (r : Response) : (placeResponse r s).rx = s.rx := rfl
@[simp] theorem placeResponse_west (r : Response) : (placeResponse r s).west = s.west := rfl
@[simp] theorem placeResponse_east (r : Response) : (placeResponse r s).east = s.east := rfl
@[simp] theorem placeResponse_pace (r : Response) : (placeResponse r s).pace = s.pace := rfl
@[simp] theorem placeResponse_train (r : Response) : (placeResponse r s).train = s.train := rfl
@[simp] theorem placeResponse_axles (r : Response) : (placeResponse r s).axles = s.axles := rfl
@[simp] theorem placeResponse_zones (r : Response) : (placeResponse r s).zones = s.zones := rfl
@[simp] theorem placeResponse_cal (r : Response) : (placeResponse r s).cal = s.cal := rfl
@[simp] theorem placeResponse_store (r : Response) : (placeResponse r s).store = s.store := rfl
@[simp] theorem placeResponse_asm (r : Response) : (placeResponse r s).asm = s.asm := rfl
@[simp] theorem placeResponse_consist (r : Response) : (placeResponse r s).consist = s.consist := rfl
@[simp] theorem placeResponse_link (r : Response) :
    (placeResponse r s).link = { s.link with responses := s.link.responses ++ [r] } :=
  rfl
@[simp] theorem placeResponse_notices (r : Response) : (placeResponse r s).notices = s.notices := rfl
@[simp] theorem placeResponse_requests (r : Response) : (placeResponse r s).requests = s.requests := rfl
@[simp] theorem placeResponse_settings (r : Response) : (placeResponse r s).settings = s.settings := rfl
@[simp] theorem placeResponse_counters (r : Response) : (placeResponse r s).counters = s.counters := rfl
@[simp] theorem placeResponse_pending (r : Response) : (placeResponse r s).pending = s.pending := rfl

/-! ## answer -/

@[simp] theorem answer_part (r : Request) (st : Status) (p : List Byte) : (answer r st p s).part = s.part := rfl
@[simp] theorem answer_calEn (r : Request) (st : Status) (p : List Byte) : (answer r st p s).calEn = s.calEn := rfl
@[simp] theorem answer_hold (r : Request) (st : Status) (p : List Byte) : (answer r st p s).hold = s.hold := rfl
@[simp] theorem answer_rx (r : Request) (st : Status) (p : List Byte) : (answer r st p s).rx = s.rx := rfl
@[simp] theorem answer_west (r : Request) (st : Status) (p : List Byte) : (answer r st p s).west = s.west := rfl
@[simp] theorem answer_east (r : Request) (st : Status) (p : List Byte) : (answer r st p s).east = s.east := rfl
@[simp] theorem answer_pace (r : Request) (st : Status) (p : List Byte) : (answer r st p s).pace = s.pace := rfl
@[simp] theorem answer_train (r : Request) (st : Status) (p : List Byte) : (answer r st p s).train = s.train := rfl
@[simp] theorem answer_axles (r : Request) (st : Status) (p : List Byte) : (answer r st p s).axles = s.axles := rfl
@[simp] theorem answer_zones (r : Request) (st : Status) (p : List Byte) : (answer r st p s).zones = s.zones := rfl
@[simp] theorem answer_cal (r : Request) (st : Status) (p : List Byte) : (answer r st p s).cal = s.cal := rfl
@[simp] theorem answer_store (r : Request) (st : Status) (p : List Byte) : (answer r st p s).store = s.store := rfl
@[simp] theorem answer_asm (r : Request) (st : Status) (p : List Byte) : (answer r st p s).asm = s.asm := rfl
@[simp] theorem answer_consist (r : Request) (st : Status) (p : List Byte) :
    (answer r st p s).consist = s.consist :=
  rfl
@[simp] theorem answer_link (r : Request) (st : Status) (p : List Byte) :
    (answer r st p s).link = { s.link with responses := s.link.responses ++ [{ tag := r.tag, code := r.code, status := st, payload := p }] } :=
  rfl
@[simp] theorem answer_notices (r : Request) (st : Status) (p : List Byte) :
    (answer r st p s).notices = s.notices :=
  rfl
@[simp] theorem answer_requests (r : Request) (st : Status) (p : List Byte) :
    (answer r st p s).requests = s.requests :=
  rfl
@[simp] theorem answer_settings (r : Request) (st : Status) (p : List Byte) :
    (answer r st p s).settings = s.settings :=
  rfl
@[simp] theorem answer_counters (r : Request) (st : Status) (p : List Byte) :
    (answer r st p s).counters = s.counters :=
  rfl
@[simp] theorem answer_pending (r : Request) (st : Status) (p : List Byte) :
    (answer r st p s).pending = s.pending :=
  rfl

/-! ## placeRecord -/

@[simp] theorem placeRecord_part (q : QueueRecord) : (placeRecord q s).part = s.part := rfl
@[simp] theorem placeRecord_calEn (q : QueueRecord) : (placeRecord q s).calEn = s.calEn := rfl
@[simp] theorem placeRecord_hold (q : QueueRecord) : (placeRecord q s).hold = s.hold := rfl
@[simp] theorem placeRecord_rx (q : QueueRecord) : (placeRecord q s).rx = s.rx := rfl
@[simp] theorem placeRecord_west (q : QueueRecord) : (placeRecord q s).west = s.west := rfl
@[simp] theorem placeRecord_east (q : QueueRecord) : (placeRecord q s).east = s.east := rfl
@[simp] theorem placeRecord_pace (q : QueueRecord) : (placeRecord q s).pace = s.pace := rfl
@[simp] theorem placeRecord_train (q : QueueRecord) : (placeRecord q s).train = s.train := rfl
@[simp] theorem placeRecord_axles (q : QueueRecord) : (placeRecord q s).axles = s.axles := rfl
@[simp] theorem placeRecord_zones (q : QueueRecord) : (placeRecord q s).zones = s.zones := rfl
@[simp] theorem placeRecord_cal (q : QueueRecord) : (placeRecord q s).cal = s.cal := rfl
@[simp] theorem placeRecord_store (q : QueueRecord) : (placeRecord q s).store = s.store := rfl
@[simp] theorem placeRecord_asm (q : QueueRecord) : (placeRecord q s).asm = s.asm := rfl
@[simp] theorem placeRecord_consist (q : QueueRecord) : (placeRecord q s).consist = s.consist := rfl
@[simp] theorem placeRecord_link (q : QueueRecord) :
    (placeRecord q s).link = { s.link with records := s.link.records ++ [q] } :=
  rfl
@[simp] theorem placeRecord_requests (q : QueueRecord) : (placeRecord q s).requests = s.requests := rfl
@[simp] theorem placeRecord_settings (q : QueueRecord) : (placeRecord q s).settings = s.settings := rfl
@[simp] theorem placeRecord_counters (q : QueueRecord) : (placeRecord q s).counters = s.counters := rfl
@[simp] theorem placeRecord_pending (q : QueueRecord) : (placeRecord q s).pending = s.pending := rfl

/-! ## setZone -/

@[simp] theorem setZone_part (z : Fin 4) (u : ZoneUnit) : (setZone z u s).part = s.part := rfl
@[simp] theorem setZone_calEn (z : Fin 4) (u : ZoneUnit) : (setZone z u s).calEn = s.calEn := rfl
@[simp] theorem setZone_hold (z : Fin 4) (u : ZoneUnit) : (setZone z u s).hold = s.hold := rfl
@[simp] theorem setZone_rx (z : Fin 4) (u : ZoneUnit) : (setZone z u s).rx = s.rx := rfl
@[simp] theorem setZone_west (z : Fin 4) (u : ZoneUnit) : (setZone z u s).west = s.west := rfl
@[simp] theorem setZone_east (z : Fin 4) (u : ZoneUnit) : (setZone z u s).east = s.east := rfl
@[simp] theorem setZone_pace (z : Fin 4) (u : ZoneUnit) : (setZone z u s).pace = s.pace := rfl
@[simp] theorem setZone_train (z : Fin 4) (u : ZoneUnit) : (setZone z u s).train = s.train := rfl
@[simp] theorem setZone_axles (z : Fin 4) (u : ZoneUnit) : (setZone z u s).axles = s.axles := rfl
@[simp] theorem setZone_zones (z : Fin 4) (u : ZoneUnit) : (setZone z u s).zones = s.zones.set z u := rfl
@[simp] theorem setZone_cal (z : Fin 4) (u : ZoneUnit) : (setZone z u s).cal = s.cal := rfl
@[simp] theorem setZone_store (z : Fin 4) (u : ZoneUnit) : (setZone z u s).store = s.store := rfl
@[simp] theorem setZone_asm (z : Fin 4) (u : ZoneUnit) : (setZone z u s).asm = s.asm := rfl
@[simp] theorem setZone_consist (z : Fin 4) (u : ZoneUnit) : (setZone z u s).consist = s.consist := rfl
@[simp] theorem setZone_link (z : Fin 4) (u : ZoneUnit) : (setZone z u s).link = s.link := rfl
@[simp] theorem setZone_notices (z : Fin 4) (u : ZoneUnit) : (setZone z u s).notices = s.notices := rfl
@[simp] theorem setZone_requests (z : Fin 4) (u : ZoneUnit) : (setZone z u s).requests = s.requests := rfl
@[simp] theorem setZone_settings (z : Fin 4) (u : ZoneUnit) : (setZone z u s).settings = s.settings := rfl
@[simp] theorem setZone_counters (z : Fin 4) (u : ZoneUnit) : (setZone z u s).counters = s.counters := rfl
@[simp] theorem setZone_pending (z : Fin 4) (u : ZoneUnit) : (setZone z u s).pending = s.pending := rfl

/-! ## mapZones -/

@[simp] theorem mapZones_part (f : Fin 4 → ZoneUnit → ZoneUnit) : (mapZones f s).part = s.part := rfl
@[simp] theorem mapZones_calEn (f : Fin 4 → ZoneUnit → ZoneUnit) : (mapZones f s).calEn = s.calEn := rfl
@[simp] theorem mapZones_hold (f : Fin 4 → ZoneUnit → ZoneUnit) : (mapZones f s).hold = s.hold := rfl
@[simp] theorem mapZones_rx (f : Fin 4 → ZoneUnit → ZoneUnit) : (mapZones f s).rx = s.rx := rfl
@[simp] theorem mapZones_west (f : Fin 4 → ZoneUnit → ZoneUnit) : (mapZones f s).west = s.west := rfl
@[simp] theorem mapZones_east (f : Fin 4 → ZoneUnit → ZoneUnit) : (mapZones f s).east = s.east := rfl
@[simp] theorem mapZones_pace (f : Fin 4 → ZoneUnit → ZoneUnit) : (mapZones f s).pace = s.pace := rfl
@[simp] theorem mapZones_train (f : Fin 4 → ZoneUnit → ZoneUnit) : (mapZones f s).train = s.train := rfl
@[simp] theorem mapZones_axles (f : Fin 4 → ZoneUnit → ZoneUnit) : (mapZones f s).axles = s.axles := rfl
@[simp] theorem mapZones_zones (f : Fin 4 → ZoneUnit → ZoneUnit) :
    (mapZones f s).zones = #v[f 0 s.zones[0], f 1 s.zones[1], f 2 s.zones[2], f 3 s.zones[3]] :=
  rfl
@[simp] theorem mapZones_cal (f : Fin 4 → ZoneUnit → ZoneUnit) : (mapZones f s).cal = s.cal := rfl
@[simp] theorem mapZones_store (f : Fin 4 → ZoneUnit → ZoneUnit) : (mapZones f s).store = s.store := rfl
@[simp] theorem mapZones_asm (f : Fin 4 → ZoneUnit → ZoneUnit) : (mapZones f s).asm = s.asm := rfl
@[simp] theorem mapZones_consist (f : Fin 4 → ZoneUnit → ZoneUnit) : (mapZones f s).consist = s.consist := rfl
@[simp] theorem mapZones_link (f : Fin 4 → ZoneUnit → ZoneUnit) : (mapZones f s).link = s.link := rfl
@[simp] theorem mapZones_notices (f : Fin 4 → ZoneUnit → ZoneUnit) : (mapZones f s).notices = s.notices := rfl
@[simp] theorem mapZones_requests (f : Fin 4 → ZoneUnit → ZoneUnit) : (mapZones f s).requests = s.requests := rfl
@[simp] theorem mapZones_settings (f : Fin 4 → ZoneUnit → ZoneUnit) : (mapZones f s).settings = s.settings := rfl
@[simp] theorem mapZones_counters (f : Fin 4 → ZoneUnit → ZoneUnit) : (mapZones f s).counters = s.counters := rfl
@[simp] theorem mapZones_pending (f : Fin 4 → ZoneUnit → ZoneUnit) : (mapZones f s).pending = s.pending := rfl

/-! ## reloadZones -/

@[simp] theorem reloadZones_part : (reloadZones s).part = s.part := rfl
@[simp] theorem reloadZones_calEn : (reloadZones s).calEn = s.calEn := rfl
@[simp] theorem reloadZones_hold : (reloadZones s).hold = s.hold := rfl
@[simp] theorem reloadZones_rx : (reloadZones s).rx = s.rx := rfl
@[simp] theorem reloadZones_west : (reloadZones s).west = s.west := rfl
@[simp] theorem reloadZones_east : (reloadZones s).east = s.east := rfl
@[simp] theorem reloadZones_pace : (reloadZones s).pace = s.pace := rfl
@[simp] theorem reloadZones_train : (reloadZones s).train = s.train := rfl
@[simp] theorem reloadZones_axles : (reloadZones s).axles = s.axles := rfl
@[simp] theorem reloadZones_cal : (reloadZones s).cal = s.cal := rfl
@[simp] theorem reloadZones_store : (reloadZones s).store = s.store := rfl
@[simp] theorem reloadZones_asm : (reloadZones s).asm = s.asm := rfl
@[simp] theorem reloadZones_consist : (reloadZones s).consist = s.consist := rfl
@[simp] theorem reloadZones_link : (reloadZones s).link = s.link := rfl
@[simp] theorem reloadZones_notices : (reloadZones s).notices = s.notices := rfl
@[simp] theorem reloadZones_requests : (reloadZones s).requests = s.requests := rfl
@[simp] theorem reloadZones_settings : (reloadZones s).settings = s.settings := rfl
@[simp] theorem reloadZones_counters : (reloadZones s).counters = s.counters := rfl
@[simp] theorem reloadZones_pending : (reloadZones s).pending = s.pending := rfl

/-! ## emptyWindows -/

@[simp] theorem emptyWindows_part : (emptyWindows s).part = s.part := rfl
@[simp] theorem emptyWindows_calEn : (emptyWindows s).calEn = s.calEn := rfl
@[simp] theorem emptyWindows_hold : (emptyWindows s).hold = s.hold := rfl
@[simp] theorem emptyWindows_rx : (emptyWindows s).rx = s.rx := rfl
@[simp] theorem emptyWindows_west : (emptyWindows s).west = s.west := rfl
@[simp] theorem emptyWindows_east : (emptyWindows s).east = s.east := rfl
@[simp] theorem emptyWindows_pace : (emptyWindows s).pace = s.pace := rfl
@[simp] theorem emptyWindows_train : (emptyWindows s).train = s.train := rfl
@[simp] theorem emptyWindows_axles : (emptyWindows s).axles = s.axles := rfl
@[simp] theorem emptyWindows_cal : (emptyWindows s).cal = s.cal := rfl
@[simp] theorem emptyWindows_store : (emptyWindows s).store = s.store := rfl
@[simp] theorem emptyWindows_asm : (emptyWindows s).asm = s.asm := rfl
@[simp] theorem emptyWindows_consist : (emptyWindows s).consist = s.consist := rfl
@[simp] theorem emptyWindows_link : (emptyWindows s).link = s.link := rfl
@[simp] theorem emptyWindows_notices : (emptyWindows s).notices = s.notices := rfl
@[simp] theorem emptyWindows_requests : (emptyWindows s).requests = s.requests := rfl
@[simp] theorem emptyWindows_settings : (emptyWindows s).settings = s.settings := rfl
@[simp] theorem emptyWindows_counters : (emptyWindows s).counters = s.counters := rfl
@[simp] theorem emptyWindows_pending : (emptyWindows s).pending = s.pending := rfl

/-! ## withdrawWindows -/

@[simp] theorem withdrawWindows_part (j : Nat) (g : Option Nat) : (withdrawWindows j g s).part = s.part := rfl
@[simp] theorem withdrawWindows_calEn (j : Nat) (g : Option Nat) : (withdrawWindows j g s).calEn = s.calEn := rfl
@[simp] theorem withdrawWindows_hold (j : Nat) (g : Option Nat) : (withdrawWindows j g s).hold = s.hold := rfl
@[simp] theorem withdrawWindows_rx (j : Nat) (g : Option Nat) : (withdrawWindows j g s).rx = s.rx := rfl
@[simp] theorem withdrawWindows_west (j : Nat) (g : Option Nat) : (withdrawWindows j g s).west = s.west := rfl
@[simp] theorem withdrawWindows_east (j : Nat) (g : Option Nat) : (withdrawWindows j g s).east = s.east := rfl
@[simp] theorem withdrawWindows_pace (j : Nat) (g : Option Nat) : (withdrawWindows j g s).pace = s.pace := rfl
@[simp] theorem withdrawWindows_train (j : Nat) (g : Option Nat) : (withdrawWindows j g s).train = s.train := rfl
@[simp] theorem withdrawWindows_axles (j : Nat) (g : Option Nat) : (withdrawWindows j g s).axles = s.axles := rfl
@[simp] theorem withdrawWindows_cal (j : Nat) (g : Option Nat) : (withdrawWindows j g s).cal = s.cal := rfl
@[simp] theorem withdrawWindows_store (j : Nat) (g : Option Nat) : (withdrawWindows j g s).store = s.store := rfl
@[simp] theorem withdrawWindows_asm (j : Nat) (g : Option Nat) : (withdrawWindows j g s).asm = s.asm := rfl
@[simp] theorem withdrawWindows_consist (j : Nat) (g : Option Nat) : (withdrawWindows j g s).consist = s.consist := rfl
@[simp] theorem withdrawWindows_link (j : Nat) (g : Option Nat) : (withdrawWindows j g s).link = s.link := rfl
@[simp] theorem withdrawWindows_notices (j : Nat) (g : Option Nat) : (withdrawWindows j g s).notices = s.notices := rfl
@[simp] theorem withdrawWindows_requests (j : Nat) (g : Option Nat) :
    (withdrawWindows j g s).requests = s.requests :=
  rfl
@[simp] theorem withdrawWindows_settings (j : Nat) (g : Option Nat) :
    (withdrawWindows j g s).settings = s.settings :=
  rfl
@[simp] theorem withdrawWindows_counters (j : Nat) (g : Option Nat) :
    (withdrawWindows j g s).counters = s.counters :=
  rfl
@[simp] theorem withdrawWindows_pending (j : Nat) (g : Option Nat) : (withdrawWindows j g s).pending = s.pending := rfl

/-! ## reloadChannel -/

@[simp] theorem reloadChannel_part (ch : Fin 8) (c : ChannelRecord) : (reloadChannel ch c s).part = s.part := rfl
@[simp] theorem reloadChannel_calEn (ch : Fin 8) (c : ChannelRecord) : (reloadChannel ch c s).calEn = s.calEn := rfl
@[simp] theorem reloadChannel_hold (ch : Fin 8) (c : ChannelRecord) : (reloadChannel ch c s).hold = s.hold := rfl
@[simp] theorem reloadChannel_rx (ch : Fin 8) (c : ChannelRecord) : (reloadChannel ch c s).rx = s.rx := rfl
@[simp] theorem reloadChannel_west (ch : Fin 8) (c : ChannelRecord) : (reloadChannel ch c s).west = s.west := rfl
@[simp] theorem reloadChannel_east (ch : Fin 8) (c : ChannelRecord) : (reloadChannel ch c s).east = s.east := rfl
@[simp] theorem reloadChannel_pace (ch : Fin 8) (c : ChannelRecord) : (reloadChannel ch c s).pace = s.pace := rfl
@[simp] theorem reloadChannel_train (ch : Fin 8) (c : ChannelRecord) : (reloadChannel ch c s).train = s.train := rfl
@[simp] theorem reloadChannel_axles (ch : Fin 8) (c : ChannelRecord) : (reloadChannel ch c s).axles = s.axles := rfl
@[simp] theorem reloadChannel_cal (ch : Fin 8) (c : ChannelRecord) : (reloadChannel ch c s).cal = s.cal := rfl
@[simp] theorem reloadChannel_store (ch : Fin 8) (c : ChannelRecord) : (reloadChannel ch c s).store = s.store := rfl
@[simp] theorem reloadChannel_asm (ch : Fin 8) (c : ChannelRecord) : (reloadChannel ch c s).asm = s.asm := rfl
@[simp] theorem reloadChannel_consist (ch : Fin 8) (c : ChannelRecord) :
    (reloadChannel ch c s).consist = s.consist :=
  rfl
@[simp] theorem reloadChannel_link (ch : Fin 8) (c : ChannelRecord) : (reloadChannel ch c s).link = s.link := rfl
@[simp] theorem reloadChannel_notices (ch : Fin 8) (c : ChannelRecord) :
    (reloadChannel ch c s).notices = s.notices :=
  rfl
@[simp] theorem reloadChannel_requests (ch : Fin 8) (c : ChannelRecord) :
    (reloadChannel ch c s).requests = s.requests :=
  rfl
@[simp] theorem reloadChannel_settings (ch : Fin 8) (c : ChannelRecord) :
    (reloadChannel ch c s).settings = s.settings :=
  rfl
@[simp] theorem reloadChannel_counters (ch : Fin 8) (c : ChannelRecord) :
    (reloadChannel ch c s).counters = s.counters :=
  rfl
@[simp] theorem reloadChannel_pending (ch : Fin 8) (c : ChannelRecord) :
    (reloadChannel ch c s).pending = s.pending :=
  rfl

/-! ## modifyVehicle -/

@[simp] theorem modifyVehicle_part (q : Nat) (f : Vehicle → Vehicle) : (modifyVehicle q f s).part = s.part := rfl
@[simp] theorem modifyVehicle_calEn (q : Nat) (f : Vehicle → Vehicle) : (modifyVehicle q f s).calEn = s.calEn := rfl
@[simp] theorem modifyVehicle_hold (q : Nat) (f : Vehicle → Vehicle) : (modifyVehicle q f s).hold = s.hold := rfl
@[simp] theorem modifyVehicle_rx (q : Nat) (f : Vehicle → Vehicle) : (modifyVehicle q f s).rx = s.rx := rfl
@[simp] theorem modifyVehicle_west (q : Nat) (f : Vehicle → Vehicle) : (modifyVehicle q f s).west = s.west := rfl
@[simp] theorem modifyVehicle_east (q : Nat) (f : Vehicle → Vehicle) : (modifyVehicle q f s).east = s.east := rfl
@[simp] theorem modifyVehicle_pace (q : Nat) (f : Vehicle → Vehicle) : (modifyVehicle q f s).pace = s.pace := rfl
@[simp] theorem modifyVehicle_train (q : Nat) (f : Vehicle → Vehicle) : (modifyVehicle q f s).train = s.train := rfl
@[simp] theorem modifyVehicle_axles (q : Nat) (f : Vehicle → Vehicle) : (modifyVehicle q f s).axles = s.axles := rfl
@[simp] theorem modifyVehicle_zones (q : Nat) (f : Vehicle → Vehicle) : (modifyVehicle q f s).zones = s.zones := rfl
@[simp] theorem modifyVehicle_cal (q : Nat) (f : Vehicle → Vehicle) : (modifyVehicle q f s).cal = s.cal := rfl
@[simp] theorem modifyVehicle_store (q : Nat) (f : Vehicle → Vehicle) : (modifyVehicle q f s).store = s.store := rfl
@[simp] theorem modifyVehicle_asm (q : Nat) (f : Vehicle → Vehicle) :
    (modifyVehicle q f s).asm = { s.asm with list := s.asm.list.map fun v => if v.sequence = q then f v else v } :=
  rfl
@[simp] theorem modifyVehicle_consist (q : Nat) (f : Vehicle → Vehicle) :
    (modifyVehicle q f s).consist = s.consist :=
  rfl
@[simp] theorem modifyVehicle_link (q : Nat) (f : Vehicle → Vehicle) : (modifyVehicle q f s).link = s.link := rfl
@[simp] theorem modifyVehicle_notices (q : Nat) (f : Vehicle → Vehicle) :
    (modifyVehicle q f s).notices = s.notices :=
  rfl
@[simp] theorem modifyVehicle_requests (q : Nat) (f : Vehicle → Vehicle) :
    (modifyVehicle q f s).requests = s.requests :=
  rfl
@[simp] theorem modifyVehicle_settings (q : Nat) (f : Vehicle → Vehicle) :
    (modifyVehicle q f s).settings = s.settings :=
  rfl
@[simp] theorem modifyVehicle_counters (q : Nat) (f : Vehicle → Vehicle) :
    (modifyVehicle q f s).counters = s.counters :=
  rfl
@[simp] theorem modifyVehicle_pending (q : Nat) (f : Vehicle → Vehicle) :
    (modifyVehicle q f s).pending = s.pending :=
  rfl

/-! ## resolveWaiting -/

@[simp] theorem resolveWaiting_part : (resolveWaiting s).part = s.part := rfl
@[simp] theorem resolveWaiting_calEn : (resolveWaiting s).calEn = s.calEn := rfl
@[simp] theorem resolveWaiting_hold : (resolveWaiting s).hold = s.hold := rfl
@[simp] theorem resolveWaiting_rx : (resolveWaiting s).rx = s.rx := rfl
@[simp] theorem resolveWaiting_west : (resolveWaiting s).west = s.west := rfl
@[simp] theorem resolveWaiting_east : (resolveWaiting s).east = s.east := rfl
@[simp] theorem resolveWaiting_pace : (resolveWaiting s).pace = s.pace := rfl
@[simp] theorem resolveWaiting_train : (resolveWaiting s).train = s.train := rfl
@[simp] theorem resolveWaiting_axles : (resolveWaiting s).axles = s.axles := rfl
@[simp] theorem resolveWaiting_zones : (resolveWaiting s).zones = s.zones := rfl
@[simp] theorem resolveWaiting_cal : (resolveWaiting s).cal = s.cal := rfl
@[simp] theorem resolveWaiting_store : (resolveWaiting s).store = s.store := rfl
@[simp] theorem resolveWaiting_consist : (resolveWaiting s).consist = s.consist := rfl
@[simp] theorem resolveWaiting_link : (resolveWaiting s).link = s.link := rfl
@[simp] theorem resolveWaiting_notices : (resolveWaiting s).notices = s.notices := rfl
@[simp] theorem resolveWaiting_requests : (resolveWaiting s).requests = s.requests := rfl
@[simp] theorem resolveWaiting_settings : (resolveWaiting s).settings = s.settings := rfl
@[simp] theorem resolveWaiting_counters : (resolveWaiting s).counters = s.counters := rfl
@[simp] theorem resolveWaiting_pending : (resolveWaiting s).pending = s.pending := rfl

/-! ## dropHead -/

@[simp] theorem dropHead_part : (dropHead s).part = s.part := rfl
@[simp] theorem dropHead_calEn : (dropHead s).calEn = s.calEn := rfl
@[simp] theorem dropHead_hold : (dropHead s).hold = s.hold := rfl
@[simp] theorem dropHead_rx : (dropHead s).rx = s.rx := rfl
@[simp] theorem dropHead_west : (dropHead s).west = s.west := rfl
@[simp] theorem dropHead_east : (dropHead s).east = s.east := rfl
@[simp] theorem dropHead_pace : (dropHead s).pace = s.pace := rfl
@[simp] theorem dropHead_train : (dropHead s).train = s.train := rfl
@[simp] theorem dropHead_axles : (dropHead s).axles = s.axles := rfl
@[simp] theorem dropHead_zones : (dropHead s).zones = s.zones := rfl
@[simp] theorem dropHead_cal : (dropHead s).cal = s.cal := rfl
@[simp] theorem dropHead_store : (dropHead s).store = s.store := rfl
@[simp] theorem dropHead_asm : (dropHead s).asm = { s.asm with list := s.asm.list.tail } := rfl
@[simp] theorem dropHead_consist : (dropHead s).consist = s.consist := rfl
@[simp] theorem dropHead_link : (dropHead s).link = s.link := rfl
@[simp] theorem dropHead_notices : (dropHead s).notices = s.notices := rfl
@[simp] theorem dropHead_requests : (dropHead s).requests = s.requests := rfl
@[simp] theorem dropHead_settings : (dropHead s).settings = s.settings := rfl
@[simp] theorem dropHead_counters : (dropHead s).counters = s.counters := rfl
@[simp] theorem dropHead_pending : (dropHead s).pending = s.pending := rfl

/-! ## lockReset -/

@[simp] theorem lockReset_part : (lockReset s).part = s.part := rfl
@[simp] theorem lockReset_calEn : (lockReset s).calEn = s.calEn := rfl
@[simp] theorem lockReset_hold : (lockReset s).hold = s.hold := rfl
@[simp] theorem lockReset_rx : (lockReset s).rx = s.rx := rfl
@[simp] theorem lockReset_west : (lockReset s).west = s.west := rfl
@[simp] theorem lockReset_east : (lockReset s).east = s.east := rfl
@[simp] theorem lockReset_pace : (lockReset s).pace = PaceTracker.reset := rfl
@[simp] theorem lockReset_train : (lockReset s).train = s.train := rfl
@[simp] theorem lockReset_axles : (lockReset s).axles = s.axles := rfl
@[simp] theorem lockReset_zones : (lockReset s).zones = s.zones := rfl
@[simp] theorem lockReset_cal : (lockReset s).cal = s.cal := rfl
@[simp] theorem lockReset_store : (lockReset s).store = s.store := rfl
@[simp] theorem lockReset_asm : (lockReset s).asm = s.asm := rfl
@[simp] theorem lockReset_consist : (lockReset s).consist = s.consist := rfl
@[simp] theorem lockReset_link : (lockReset s).link = s.link := rfl
@[simp] theorem lockReset_notices : (lockReset s).notices = s.notices := rfl
@[simp] theorem lockReset_requests : (lockReset s).requests = s.requests := rfl
@[simp] theorem lockReset_settings : (lockReset s).settings = s.settings := rfl
@[simp] theorem lockReset_counters : (lockReset s).counters = s.counters := rfl
@[simp] theorem lockReset_pending : (lockReset s).pending = s.pending := rfl

/-! ## takePace -/

@[simp] theorem takePace_part (p : Passage) : (takePace p s).part = s.part := rfl
@[simp] theorem takePace_calEn (p : Passage) : (takePace p s).calEn = s.calEn := rfl
@[simp] theorem takePace_hold (p : Passage) : (takePace p s).hold = s.hold := rfl
@[simp] theorem takePace_rx (p : Passage) : (takePace p s).rx = s.rx := rfl
@[simp] theorem takePace_west (p : Passage) : (takePace p s).west = s.west := rfl
@[simp] theorem takePace_east (p : Passage) : (takePace p s).east = s.east := rfl
@[simp] theorem takePace_pace (p : Passage) : (takePace p s).pace = s.pace.take p.ownPace := rfl
@[simp] theorem takePace_train (p : Passage) : (takePace p s).train = s.train := rfl
@[simp] theorem takePace_axles (p : Passage) : (takePace p s).axles = s.axles := rfl
@[simp] theorem takePace_zones (p : Passage) : (takePace p s).zones = s.zones := rfl
@[simp] theorem takePace_cal (p : Passage) : (takePace p s).cal = s.cal := rfl
@[simp] theorem takePace_store (p : Passage) : (takePace p s).store = s.store := rfl
@[simp] theorem takePace_asm (p : Passage) : (takePace p s).asm = s.asm := rfl
@[simp] theorem takePace_consist (p : Passage) : (takePace p s).consist = s.consist := rfl
@[simp] theorem takePace_link (p : Passage) : (takePace p s).link = s.link := rfl
@[simp] theorem takePace_notices (p : Passage) : (takePace p s).notices = s.notices := rfl
@[simp] theorem takePace_requests (p : Passage) : (takePace p s).requests = s.requests := rfl
@[simp] theorem takePace_settings (p : Passage) : (takePace p s).settings = s.settings := rfl
@[simp] theorem takePace_counters (p : Passage) : (takePace p s).counters = s.counters := rfl
@[simp] theorem takePace_pending (p : Passage) : (takePace p s).pending = s.pending := rfl

/-! ## endFrame -/

@[simp] theorem endFrame_part : (endFrame s).part = s.part := rfl
@[simp] theorem endFrame_calEn : (endFrame s).calEn = s.calEn := rfl
@[simp] theorem endFrame_hold : (endFrame s).hold = s.hold := rfl
@[simp] theorem endFrame_rx : (endFrame s).rx = s.rx := rfl
@[simp] theorem endFrame_west : (endFrame s).west = s.west := rfl
@[simp] theorem endFrame_east : (endFrame s).east = s.east := rfl
@[simp] theorem endFrame_pace : (endFrame s).pace = s.pace := rfl
@[simp] theorem endFrame_train : (endFrame s).train = s.train := rfl
@[simp] theorem endFrame_axles : (endFrame s).axles = s.axles := rfl
@[simp] theorem endFrame_zones : (endFrame s).zones = s.zones := rfl
@[simp] theorem endFrame_cal : (endFrame s).cal = s.cal := rfl
@[simp] theorem endFrame_store : (endFrame s).store = s.store := rfl
@[simp] theorem endFrame_asm : (endFrame s).asm = s.asm := rfl
@[simp] theorem endFrame_consist : (endFrame s).consist = s.consist := rfl
@[simp] theorem endFrame_link : (endFrame s).link = { s.link with sending := none } := rfl
@[simp] theorem endFrame_notices : (endFrame s).notices = s.notices := rfl
@[simp] theorem endFrame_requests : (endFrame s).requests = s.requests := rfl
@[simp] theorem endFrame_settings : (endFrame s).settings = s.settings := rfl
@[simp] theorem endFrame_counters : (endFrame s).counters = s.counters := rfl
@[simp] theorem endFrame_pending : (endFrame s).pending = s.pending := rfl

/-! ## setType -/

@[simp] theorem setType_part (i : Fin 32) (t : Option VehicleType) : (setType i t s).part = s.part := rfl
@[simp] theorem setType_calEn (i : Fin 32) (t : Option VehicleType) : (setType i t s).calEn = s.calEn := rfl
@[simp] theorem setType_hold (i : Fin 32) (t : Option VehicleType) : (setType i t s).hold = s.hold := rfl
@[simp] theorem setType_rx (i : Fin 32) (t : Option VehicleType) : (setType i t s).rx = s.rx := rfl
@[simp] theorem setType_west (i : Fin 32) (t : Option VehicleType) : (setType i t s).west = s.west := rfl
@[simp] theorem setType_east (i : Fin 32) (t : Option VehicleType) : (setType i t s).east = s.east := rfl
@[simp] theorem setType_pace (i : Fin 32) (t : Option VehicleType) : (setType i t s).pace = s.pace := rfl
@[simp] theorem setType_train (i : Fin 32) (t : Option VehicleType) : (setType i t s).train = s.train := rfl
@[simp] theorem setType_axles (i : Fin 32) (t : Option VehicleType) : (setType i t s).axles = s.axles := rfl
@[simp] theorem setType_zones (i : Fin 32) (t : Option VehicleType) : (setType i t s).zones = s.zones := rfl
@[simp] theorem setType_cal (i : Fin 32) (t : Option VehicleType) : (setType i t s).cal = s.cal := rfl
@[simp] theorem setType_store (i : Fin 32) (t : Option VehicleType) : (setType i t s).store = s.store := rfl
@[simp] theorem setType_asm (i : Fin 32) (t : Option VehicleType) :
    (setType i t s).asm = { s.asm with types := s.asm.types.set i t } :=
  rfl
@[simp] theorem setType_consist (i : Fin 32) (t : Option VehicleType) : (setType i t s).consist = s.consist := rfl
@[simp] theorem setType_link (i : Fin 32) (t : Option VehicleType) : (setType i t s).link = s.link := rfl
@[simp] theorem setType_notices (i : Fin 32) (t : Option VehicleType) : (setType i t s).notices = s.notices := rfl
@[simp] theorem setType_requests (i : Fin 32) (t : Option VehicleType) : (setType i t s).requests = s.requests := rfl
@[simp] theorem setType_settings (i : Fin 32) (t : Option VehicleType) : (setType i t s).settings = s.settings := rfl
@[simp] theorem setType_counters (i : Fin 32) (t : Option VehicleType) : (setType i t s).counters = s.counters := rfl
@[simp] theorem setType_pending (i : Fin 32) (t : Option VehicleType) : (setType i t s).pending = s.pending := rfl

/-! ## zeroCounters -/

@[simp] theorem zeroCounters_part : (zeroCounters s).part = s.part := rfl
@[simp] theorem zeroCounters_calEn : (zeroCounters s).calEn = s.calEn := rfl
@[simp] theorem zeroCounters_hold : (zeroCounters s).hold = s.hold := rfl
@[simp] theorem zeroCounters_rx : (zeroCounters s).rx = s.rx := rfl
@[simp] theorem zeroCounters_west : (zeroCounters s).west = s.west := rfl
@[simp] theorem zeroCounters_east : (zeroCounters s).east = s.east := rfl
@[simp] theorem zeroCounters_pace : (zeroCounters s).pace = s.pace := rfl
@[simp] theorem zeroCounters_train : (zeroCounters s).train = s.train := rfl
@[simp] theorem zeroCounters_axles : (zeroCounters s).axles = s.axles := rfl
@[simp] theorem zeroCounters_zones : (zeroCounters s).zones = s.zones := rfl
@[simp] theorem zeroCounters_cal : (zeroCounters s).cal = s.cal := rfl
@[simp] theorem zeroCounters_store : (zeroCounters s).store = s.store := rfl
@[simp] theorem zeroCounters_asm : (zeroCounters s).asm = s.asm := rfl
@[simp] theorem zeroCounters_consist : (zeroCounters s).consist = s.consist := rfl
@[simp] theorem zeroCounters_link : (zeroCounters s).link = s.link := rfl
@[simp] theorem zeroCounters_notices : (zeroCounters s).notices = s.notices := rfl
@[simp] theorem zeroCounters_requests : (zeroCounters s).requests = s.requests := rfl
@[simp] theorem zeroCounters_settings : (zeroCounters s).settings = s.settings := rfl
@[simp] theorem zeroCounters_counters :
    (zeroCounters s).counters = #v[s.counters[0].zeroed, s.counters[1].zeroed, s.counters[2].zeroed, s.counters[3].zeroed] :=
  rfl
@[simp] theorem zeroCounters_pending : (zeroCounters s).pending = s.pending := rfl

/-! ## acceptWrite -/

@[simp] theorem acceptWrite_calEn (r : Request) (f : Calibration → Calibration) :
    (acceptWrite r f s).calEn = s.calEn :=
  rfl
@[simp] theorem acceptWrite_hold (r : Request) (f : Calibration → Calibration) :
    (acceptWrite r f s).hold = s.hold :=
  rfl
@[simp] theorem acceptWrite_rx (r : Request) (f : Calibration → Calibration) : (acceptWrite r f s).rx = s.rx := rfl
@[simp] theorem acceptWrite_west (r : Request) (f : Calibration → Calibration) :
    (acceptWrite r f s).west = s.west :=
  rfl
@[simp] theorem acceptWrite_east (r : Request) (f : Calibration → Calibration) :
    (acceptWrite r f s).east = s.east :=
  rfl
@[simp] theorem acceptWrite_pace (r : Request) (f : Calibration → Calibration) :
    (acceptWrite r f s).pace = s.pace :=
  rfl
@[simp] theorem acceptWrite_train (r : Request) (f : Calibration → Calibration) :
    (acceptWrite r f s).train = s.train :=
  rfl
@[simp] theorem acceptWrite_axles (r : Request) (f : Calibration → Calibration) :
    (acceptWrite r f s).axles = s.axles :=
  rfl
@[simp] theorem acceptWrite_zones (r : Request) (f : Calibration → Calibration) :
    (acceptWrite r f s).zones = s.zones :=
  rfl
@[simp] theorem acceptWrite_cal (r : Request) (f : Calibration → Calibration) :
    (acceptWrite r f s).cal = { f s.cal with calPending := true } :=
  rfl
@[simp] theorem acceptWrite_store (r : Request) (f : Calibration → Calibration) :
    (acceptWrite r f s).store = s.store :=
  rfl
@[simp] theorem acceptWrite_asm (r : Request) (f : Calibration → Calibration) : (acceptWrite r f s).asm = s.asm := rfl
@[simp] theorem acceptWrite_consist (r : Request) (f : Calibration → Calibration) :
    (acceptWrite r f s).consist = s.consist :=
  rfl
@[simp] theorem acceptWrite_notices (r : Request) (f : Calibration → Calibration) :
    (acceptWrite r f s).notices = s.notices :=
  rfl
@[simp] theorem acceptWrite_requests (r : Request) (f : Calibration → Calibration) :
    (acceptWrite r f s).requests = s.requests :=
  rfl
@[simp] theorem acceptWrite_settings (r : Request) (f : Calibration → Calibration) :
    (acceptWrite r f s).settings = s.settings :=
  rfl
@[simp] theorem acceptWrite_counters (r : Request) (f : Calibration → Calibration) :
    (acceptWrite r f s).counters = s.counters :=
  rfl
@[simp] theorem acceptWrite_pending (r : Request) (f : Calibration → Calibration) :
    (acceptWrite r f s).pending = s.pending :=
  rfl

/-! ## acceptCommit -/

@[simp] theorem acceptCommit_part (b : Byte) (g : GeometryRecord) (k : Vector CurvePoint 8) :
    (acceptCommit b g k s).part = s.part :=
  rfl
@[simp] theorem acceptCommit_calEn (b : Byte) (g : GeometryRecord) (k : Vector CurvePoint 8) :
    (acceptCommit b g k s).calEn = s.calEn :=
  rfl
@[simp] theorem acceptCommit_hold (b : Byte) (g : GeometryRecord) (k : Vector CurvePoint 8) :
    (acceptCommit b g k s).hold = s.hold :=
  rfl
@[simp] theorem acceptCommit_rx (b : Byte) (g : GeometryRecord) (k : Vector CurvePoint 8) :
    (acceptCommit b g k s).rx = s.rx :=
  rfl
@[simp] theorem acceptCommit_west (b : Byte) (g : GeometryRecord) (k : Vector CurvePoint 8) :
    (acceptCommit b g k s).west = s.west :=
  rfl
@[simp] theorem acceptCommit_east (b : Byte) (g : GeometryRecord) (k : Vector CurvePoint 8) :
    (acceptCommit b g k s).east = s.east :=
  rfl
@[simp] theorem acceptCommit_pace (b : Byte) (g : GeometryRecord) (k : Vector CurvePoint 8) :
    (acceptCommit b g k s).pace = s.pace :=
  rfl
@[simp] theorem acceptCommit_train (b : Byte) (g : GeometryRecord) (k : Vector CurvePoint 8) :
    (acceptCommit b g k s).train = s.train :=
  rfl
@[simp] theorem acceptCommit_axles (b : Byte) (g : GeometryRecord) (k : Vector CurvePoint 8) :
    (acceptCommit b g k s).axles = s.axles :=
  rfl
@[simp] theorem acceptCommit_zones (b : Byte) (g : GeometryRecord) (k : Vector CurvePoint 8) :
    (acceptCommit b g k s).zones = s.zones :=
  rfl
@[simp] theorem acceptCommit_cal (b : Byte) (g : GeometryRecord) (k : Vector CurvePoint 8) :
    (acceptCommit b g k s).cal = { s.cal with counter := s.cal.counter + 1, committing := some b } :=
  rfl
@[simp] theorem acceptCommit_asm (b : Byte) (g : GeometryRecord) (k : Vector CurvePoint 8) :
    (acceptCommit b g k s).asm = s.asm :=
  rfl
@[simp] theorem acceptCommit_consist (b : Byte) (g : GeometryRecord) (k : Vector CurvePoint 8) :
    (acceptCommit b g k s).consist = s.consist :=
  rfl
@[simp] theorem acceptCommit_link (b : Byte) (g : GeometryRecord) (k : Vector CurvePoint 8) :
    (acceptCommit b g k s).link = s.link :=
  rfl
@[simp] theorem acceptCommit_notices (b : Byte) (g : GeometryRecord) (k : Vector CurvePoint 8) :
    (acceptCommit b g k s).notices = s.notices :=
  rfl
@[simp] theorem acceptCommit_requests (b : Byte) (g : GeometryRecord) (k : Vector CurvePoint 8) :
    (acceptCommit b g k s).requests = s.requests :=
  rfl
@[simp] theorem acceptCommit_settings (b : Byte) (g : GeometryRecord) (k : Vector CurvePoint 8) :
    (acceptCommit b g k s).settings = s.settings :=
  rfl
@[simp] theorem acceptCommit_counters (b : Byte) (g : GeometryRecord) (k : Vector CurvePoint 8) :
    (acceptCommit b g k s).counters = s.counters :=
  rfl
@[simp] theorem acceptCommit_pending (b : Byte) (g : GeometryRecord) (k : Vector CurvePoint 8) :
    (acceptCommit b g k s).pending = s.pending :=
  rfl

/-! ## startTrain -/

@[simp] theorem startTrain_part (d : Direction) : (startTrain d s).part = s.part := rfl
@[simp] theorem startTrain_calEn (d : Direction) : (startTrain d s).calEn = s.calEn := rfl
@[simp] theorem startTrain_hold (d : Direction) : (startTrain d s).hold = s.hold := rfl
@[simp] theorem startTrain_rx (d : Direction) : (startTrain d s).rx = s.rx := rfl
@[simp] theorem startTrain_west (d : Direction) : (startTrain d s).west = s.west := rfl
@[simp] theorem startTrain_east (d : Direction) : (startTrain d s).east = s.east := rfl
@[simp] theorem startTrain_pace (d : Direction) : (startTrain d s).pace = PaceTracker.reset := rfl
@[simp] theorem startTrain_axles (d : Direction) : (startTrain d s).axles = AxleTracker.reset := rfl
@[simp] theorem startTrain_zones (d : Direction) : (startTrain d s).zones = s.zones := rfl
@[simp] theorem startTrain_cal (d : Direction) : (startTrain d s).cal = s.cal := rfl
@[simp] theorem startTrain_store (d : Direction) : (startTrain d s).store = s.store := rfl
@[simp] theorem startTrain_consist (d : Direction) : (startTrain d s).consist = s.consist := rfl
@[simp] theorem startTrain_link (d : Direction) : (startTrain d s).link = s.link := rfl
@[simp] theorem startTrain_requests (d : Direction) : (startTrain d s).requests = s.requests := rfl
@[simp] theorem startTrain_settings (d : Direction) : (startTrain d s).settings = s.settings := rfl
@[simp] theorem startTrain_counters (d : Direction) : (startTrain d s).counters = s.counters := rfl
@[simp] theorem startTrain_pending (d : Direction) : (startTrain d s).pending = s.pending := rfl

/-! ## restartBlocks -/

@[simp] theorem restartBlocks_part : (restartBlocks s).part = s.part := rfl
@[simp] theorem restartBlocks_calEn : (restartBlocks s).calEn = s.calEn := rfl
@[simp] theorem restartBlocks_hold : (restartBlocks s).hold = s.hold := rfl
@[simp] theorem restartBlocks_rx : (restartBlocks s).rx = s.rx := rfl
@[simp] theorem restartBlocks_cal : (restartBlocks s).cal = s.cal := rfl
@[simp] theorem restartBlocks_store : (restartBlocks s).store = s.store := rfl
@[simp] theorem restartBlocks_settings : (restartBlocks s).settings = s.settings := rfl
@[simp] theorem restartBlocks_pending : (restartBlocks s).pending = s.pending := rfl

/-! ## startChosen -/

@[simp] theorem startChosen_part (c : Choice) : (startChosen c s).part = s.part := by cases c <;> rfl
@[simp] theorem startChosen_calEn (c : Choice) : (startChosen c s).calEn = s.calEn := by cases c <;> rfl
@[simp] theorem startChosen_hold (c : Choice) : (startChosen c s).hold = s.hold := by cases c <;> rfl
@[simp] theorem startChosen_rx (c : Choice) : (startChosen c s).rx = s.rx := by cases c <;> rfl
@[simp] theorem startChosen_west (c : Choice) : (startChosen c s).west = s.west := by cases c <;> rfl
@[simp] theorem startChosen_east (c : Choice) : (startChosen c s).east = s.east := by cases c <;> rfl
@[simp] theorem startChosen_pace (c : Choice) : (startChosen c s).pace = s.pace := by cases c <;> rfl
@[simp] theorem startChosen_train (c : Choice) : (startChosen c s).train = s.train := by cases c <;> rfl
@[simp] theorem startChosen_axles (c : Choice) : (startChosen c s).axles = s.axles := by cases c <;> rfl
@[simp] theorem startChosen_zones (c : Choice) : (startChosen c s).zones = s.zones := by cases c <;> rfl
@[simp] theorem startChosen_cal (c : Choice) : (startChosen c s).cal = s.cal := by cases c <;> rfl
@[simp] theorem startChosen_store (c : Choice) : (startChosen c s).store = s.store := by cases c <;> rfl
@[simp] theorem startChosen_asm (c : Choice) : (startChosen c s).asm = s.asm := by cases c <;> rfl
@[simp] theorem startChosen_consist (c : Choice) : (startChosen c s).consist = s.consist := by cases c <;> rfl
@[simp] theorem startChosen_requests (c : Choice) : (startChosen c s).requests = s.requests := by cases c <;> rfl
@[simp] theorem startChosen_settings (c : Choice) : (startChosen c s).settings = s.settings := by cases c <;> rfl
@[simp] theorem startChosen_counters (c : Choice) : (startChosen c s).counters = s.counters := by cases c <;> rfl
@[simp] theorem startChosen_pending (c : Choice) : (startChosen c s).pending = s.pending := by cases c <;> rfl

/-! ## setPairUnit -/

@[simp] theorem setPairUnit_part (p : Pair) (u : PairUnit) : (setPairUnit p u s).part = s.part := by cases p <;> rfl
@[simp] theorem setPairUnit_calEn (p : Pair) (u : PairUnit) : (setPairUnit p u s).calEn = s.calEn := by cases p <;> rfl
@[simp] theorem setPairUnit_hold (p : Pair) (u : PairUnit) : (setPairUnit p u s).hold = s.hold := by cases p <;> rfl
@[simp] theorem setPairUnit_rx (p : Pair) (u : PairUnit) : (setPairUnit p u s).rx = s.rx := by cases p <;> rfl
@[simp] theorem setPairUnit_pace (p : Pair) (u : PairUnit) : (setPairUnit p u s).pace = s.pace := by cases p <;> rfl
@[simp] theorem setPairUnit_train (p : Pair) (u : PairUnit) : (setPairUnit p u s).train = s.train := by cases p <;> rfl
@[simp] theorem setPairUnit_axles (p : Pair) (u : PairUnit) : (setPairUnit p u s).axles = s.axles := by cases p <;> rfl
@[simp] theorem setPairUnit_zones (p : Pair) (u : PairUnit) : (setPairUnit p u s).zones = s.zones := by cases p <;> rfl
@[simp] theorem setPairUnit_cal (p : Pair) (u : PairUnit) : (setPairUnit p u s).cal = s.cal := by cases p <;> rfl
@[simp] theorem setPairUnit_store (p : Pair) (u : PairUnit) : (setPairUnit p u s).store = s.store := by cases p <;> rfl
@[simp] theorem setPairUnit_asm (p : Pair) (u : PairUnit) : (setPairUnit p u s).asm = s.asm := by cases p <;> rfl
@[simp] theorem setPairUnit_consist (p : Pair) (u : PairUnit) :
    (setPairUnit p u s).consist = s.consist :=
  by cases p <;> rfl
@[simp] theorem setPairUnit_link (p : Pair) (u : PairUnit) : (setPairUnit p u s).link = s.link := by cases p <;> rfl
@[simp] theorem setPairUnit_notices (p : Pair) (u : PairUnit) :
    (setPairUnit p u s).notices = s.notices :=
  by cases p <;> rfl
@[simp] theorem setPairUnit_requests (p : Pair) (u : PairUnit) :
    (setPairUnit p u s).requests = s.requests :=
  by cases p <;> rfl
@[simp] theorem setPairUnit_settings (p : Pair) (u : PairUnit) :
    (setPairUnit p u s).settings = s.settings :=
  by cases p <;> rfl
@[simp] theorem setPairUnit_counters (p : Pair) (u : PairUnit) :
    (setPairUnit p u s).counters = s.counters :=
  by cases p <;> rfl
@[simp] theorem setPairUnit_pending (p : Pair) (u : PairUnit) :
    (setPairUnit p u s).pending = s.pending :=
  by cases p <;> rfl

end Sys2Proof.Machine
end

