-- ==== Sys2Proof/Laws/Link.lean ====
section
/-! SUPPORT. What a frame boundary and the execution of the head request can do (R158 to R160, R167). -/

namespace Sys2Proof.Machine

/-! ## Frame boundaries -/

/-- Either no frame starts, because RL_HOLD is asserted, a frame is going out or nothing is there to send, and the boundary
changes nothing; or the first candidate in the order of R159 starts. -/
theorem boundary_cases (s : State) :
    (boundary s = s ∧ (s.canStart = false ∨ s.arbiter = none)) ∨
      ∃ c, s.canStart = true ∧ s.arbiter = some c ∧ boundary s = startChosen c s := by
  unfold boundary State.chosen
  cases hc : s.canStart with
  | false => simp
  | true =>
    cases ha : s.arbiter with
    | none => simp
    | some c => simp

/-- A boundary in which no frame can start changes nothing. -/
theorem boundary_of_not_canStart {s : State} (h : s.canStart = false) : boundary s = s := by
  simp [boundary, State.chosen, h]

/-- A boundary in which a frame can start takes the arbiter's choice. -/
theorem boundary_of_canStart {s : State} {c : Choice} (h : s.canStart = true) (a : s.arbiter = some c) :
    boundary s = startChosen c s := by simp [boundary, State.chosen, h, a]

/-- A started frame is going out. -/
theorem startChosen_sending (c : Choice) (s : State) : (startChosen c s).link.sending.isSome = true := by
  cases c <;> rfl

/-- After a boundary the transmitter is busy, or held, or has nothing to send. -/
theorem boundary_settles (s : State) :
    (boundary s).hold = true ∨ (boundary s).link.sending.isSome = true ∨ (boundary s).arbiter = none := by
  rcases boundary_cases s with ⟨h, h' | h'⟩ | ⟨c, _, _, h⟩
  · rw [h]
    unfold State.canStart at h'
    cases hh : s.hold <;> cases hs : s.link.sending <;> simp_all
  · rw [h]
    exact .inr (.inr h')
  · rw [h]
    exact .inr (.inl (startChosen_sending c s))

/-! ## Fields that a boundary leaves alone -/

@[simp] theorem boundary_part (s : State) : (boundary s).part = s.part := by
  rcases boundary_cases s with ⟨h, _⟩ | ⟨c, _, _, h⟩ <;> simp [h]

@[simp] theorem boundary_calEn (s : State) : (boundary s).calEn = s.calEn := by
  rcases boundary_cases s with ⟨h, _⟩ | ⟨c, _, _, h⟩ <;> simp [h]

@[simp] theorem boundary_hold (s : State) : (boundary s).hold = s.hold := by
  rcases boundary_cases s with ⟨h, _⟩ | ⟨c, _, _, h⟩ <;> simp [h]

@[simp] theorem boundary_rx (s : State) : (boundary s).rx = s.rx := by
  rcases boundary_cases s with ⟨h, _⟩ | ⟨c, _, _, h⟩ <;> simp [h]

@[simp] theorem boundary_west (s : State) : (boundary s).west = s.west := by
  rcases boundary_cases s with ⟨h, _⟩ | ⟨c, _, _, h⟩ <;> simp [h]

@[simp] theorem boundary_east (s : State) : (boundary s).east = s.east := by
  rcases boundary_cases s with ⟨h, _⟩ | ⟨c, _, _, h⟩ <;> simp [h]

@[simp] theorem boundary_pace (s : State) : (boundary s).pace = s.pace := by
  rcases boundary_cases s with ⟨h, _⟩ | ⟨c, _, _, h⟩ <;> simp [h]

@[simp] theorem boundary_train (s : State) : (boundary s).train = s.train := by
  rcases boundary_cases s with ⟨h, _⟩ | ⟨c, _, _, h⟩ <;> simp [h]

@[simp] theorem boundary_axles (s : State) : (boundary s).axles = s.axles := by
  rcases boundary_cases s with ⟨h, _⟩ | ⟨c, _, _, h⟩ <;> simp [h]

@[simp] theorem boundary_zones (s : State) : (boundary s).zones = s.zones := by
  rcases boundary_cases s with ⟨h, _⟩ | ⟨c, _, _, h⟩ <;> simp [h]

@[simp] theorem boundary_cal (s : State) : (boundary s).cal = s.cal := by
  rcases boundary_cases s with ⟨h, _⟩ | ⟨c, _, _, h⟩ <;> simp [h]

@[simp] theorem boundary_store (s : State) : (boundary s).store = s.store := by
  rcases boundary_cases s with ⟨h, _⟩ | ⟨c, _, _, h⟩ <;> simp [h]

@[simp] theorem boundary_asm (s : State) : (boundary s).asm = s.asm := by
  rcases boundary_cases s with ⟨h, _⟩ | ⟨c, _, _, h⟩ <;> simp [h]

@[simp] theorem boundary_consist (s : State) : (boundary s).consist = s.consist := by
  rcases boundary_cases s with ⟨h, _⟩ | ⟨c, _, _, h⟩ <;> simp [h]

@[simp] theorem boundary_requests (s : State) : (boundary s).requests = s.requests := by
  rcases boundary_cases s with ⟨h, _⟩ | ⟨c, _, _, h⟩ <;> simp [h]

@[simp] theorem boundary_settings (s : State) : (boundary s).settings = s.settings := by
  rcases boundary_cases s with ⟨h, _⟩ | ⟨c, _, _, h⟩ <;> simp [h]

@[simp] theorem boundary_counters (s : State) : (boundary s).counters = s.counters := by
  rcases boundary_cases s with ⟨h, _⟩ | ⟨c, _, _, h⟩ <;> simp [h]

@[simp] theorem boundary_pending (s : State) : (boundary s).pending = s.pending := by
  rcases boundary_cases s with ⟨h, _⟩ | ⟨c, _, _, h⟩ <;> simp [h]

/-- A boundary shortens each queue of the Record Link by at most its head. -/
theorem boundary_records (s : State) : (boundary s).link.records = s.link.records ∨
    (boundary s).link.records = s.link.records.tail := by
  rcases boundary_cases s with ⟨h, _⟩ | ⟨c, _, _, h⟩ <;> rw [h]
  · exact .inl rfl
  · cases c
    · exact .inl rfl
    · exact .inl rfl
    · exact .inr rfl
    · exact .inl rfl

theorem boundary_details (s : State) : (boundary s).link.details = s.link.details ∨
    (boundary s).link.details = s.link.details.tail := by
  rcases boundary_cases s with ⟨h, _⟩ | ⟨c, _, _, h⟩ <;> rw [h]
  · exact .inl rfl
  · cases c
    · exact .inl rfl
    · exact .inl rfl
    · exact .inl rfl
    · exact .inr rfl

theorem boundary_responses (s : State) : (boundary s).link.responses = s.link.responses ∨
    (boundary s).link.responses = s.link.responses.tail := by
  rcases boundary_cases s with ⟨h, _⟩ | ⟨c, _, _, h⟩ <;> rw [h]
  · exact .inl rfl
  · cases c
    · exact .inr rfl
    · exact .inl rfl
    · exact .inl rfl
    · exact .inl rfl

/-- A boundary leaves the Level Table alone. -/
theorem boundary_levels (s : State) : (boundary s).notices.levels = s.notices.levels := by
  rcases boundary_cases s with ⟨h, _⟩ | ⟨c, _, _, h⟩ <;> rw [h]
  cases c <;> rfl

/-! ## The head request -/

/-- The head request can be executed exactly when the buffer holds one, the part is not STARTING and a place of the
Response Queue is free; the state handed on differs in the buffer alone. -/
theorem headRequest_eq_some {s s' : State} {r : Request} :
    s.headRequest = some (r, s') ↔
      ∃ rest, s.requests = r :: rest ∧ s.part ≠ .starting ∧ s.responsePlace = true ∧ s' = { s with requests := rest } := by
  unfold State.headRequest
  cases s.requests with
  | nil => simp
  | cons a l =>
    by_cases h : s.part = .starting <;> cases hp : s.responsePlace <;> simp [h]
    exact fun _ => eq_comm

/-- What the step of a request row does: the executable head request of the row's code is executed and a boundary follows,
or the state stays as it is. -/
theorem onHead_cases (mine : Byte → Bool) (f : Request → State → State) (s : State) :
    onHead mine f s = s ∨
      ∃ r s', s.headRequest = some (r, s') ∧ mine r.code = true ∧ onHead mine f s = boundary (f r s') := by
  unfold onHead
  cases h : s.headRequest with
  | none => exact .inl rfl
  | some p =>
    cases hm : mine p.1.code with
    | false => simp [hm]
    | true => exact .inr ⟨p.1, p.2, rfl, hm, by simp [hm]⟩

/-- An executable head request of the row's code is executed. -/
theorem onHead_of_head {mine : Byte → Bool} {f : Request → State → State} {s : State} {r : Request}
    {rest : List Request} (hr : s.requests = r :: rest) (hp : s.part ≠ .starting) (hq : s.responsePlace = true)
    (hm : mine r.code = true) : onHead mine f s = boundary (f r { s with requests := rest }) := by
  have h : s.headRequest = some (r, { s with requests := rest }) := headRequest_eq_some.2 ⟨rest, hr, hp, hq, rfl⟩
  simp [onHead, h, hm]

/-- A request admitted by the protection goes on; any other is answered with the first status of R118 that applies. -/
theorem guarded_cases (r : Request) (f : State → State) (s : State) :
    (s.calEn = false ∧ guarded r f s = answer r .locked [] s) ∨
      (s.calEn = true ∧ s.busyTrain = true ∧ guarded r f s = answer r .busyTrain [] s) ∨
      (s.calEn = true ∧ s.busyTrain = false ∧ s.cal.committing.isSome = true ∧
        guarded r f s = answer r .busyCommit [] s) ∨
      (s.calEn = true ∧ s.busyTrain = false ∧ s.cal.committing = none ∧ guarded r f s = f s) := by
  unfold guarded State.protection
  cases s.calEn <;> cases s.busyTrain <;> cases s.cal.committing <;> simp

/-- The fields checks: the first failing one is reported, and none exactly when all pass. -/
theorem firstFailing_eq_none (l : List (Bool × Nat)) : firstFailing l = none ↔ ∀ c ∈ l, c.1 = true := by
  induction l with
  | nil => simp [firstFailing]
  | cons c l ih => cases h : c.1 <;> simp [firstFailing, h, ih]

end Sys2Proof.Machine
end

