-- ==== Sys2Proof/Laws/Records.lean ====
section
/-! SUPPORT. Reading after writing: the notice register (R161), the axle records (R65), the statistics counters (R177) and
the active channels of a zone (R82). -/

namespace Sys2Proof.Machine

/-! ## Notice register -/

/-- Distinct kinds have distinct places in the register. -/
theorem NoticeKind.index_inj {k m : NoticeKind} (h : k.index = m.index) : k = m := by
  revert h
  cases k <;> cases m <;> first | exact fun _ => rfl | exact fun h => absurd h (by decide)

/-- The entry of a kind after a cause of that kind (R161). -/
theorem NoticeUnit.entry_raise (u : NoticeUnit) (k : NoticeKind) (arg : Nat) :
    (u.raise k arg).entry k =
      { pending := (u.entry k).pending || u.level k != 0
        count := min 255 ((u.entry k).count + 1)
        lastArg := BitVec.ofNat 16 arg } := by
  simp [NoticeUnit.raise, NoticeUnit.setEntry, NoticeUnit.entry]

/-- A cause of a kind leaves every other kind alone. -/
theorem NoticeUnit.entry_raise_of_ne (u : NoticeUnit) {k m : NoticeKind} (h : m ≠ k) (arg : Nat) :
    (u.raise k arg).entry m = u.entry m := by
  have hne : k.index.val ≠ m.index.val := fun e => h (NoticeKind.index_inj (Fin.ext e)).symm
  simp [NoticeUnit.raise, NoticeUnit.setEntry, NoticeUnit.entry, Vector.getElem_set_ne, hne]

@[simp] theorem NoticeUnit.raise_levels (u : NoticeUnit) (k : NoticeKind) (arg : Nat) :
    (u.raise k arg).levels = u.levels := rfl

/-! ## Axle records -/

@[simp] theorem AxleTracker.modify_highest (x : AxleTracker) (j : Nat) (f : AxleRecord → AxleRecord) :
    (x.modify j f).highest = x.highest := rfl
@[simp] theorem AxleTracker.modify_firstOn (x : AxleTracker) (j : Nat) (f : AxleRecord → AxleRecord) :
    (x.modify j f).firstOn = x.firstOn := rfl
@[simp] theorem AxleTracker.modify_lastOn (x : AxleTracker) (j : Nat) (f : AxleRecord → AxleRecord) :
    (x.modify j f).lastOn = x.lastOn := rfl
@[simp] theorem AxleTracker.modify_lowestHeld (x : AxleTracker) (j : Nat) (f : AxleRecord → AxleRecord) :
    (x.modify j f).lowestHeld = x.lowestHeld := rfl
@[simp] theorem AxleTracker.modify_length (x : AxleTracker) (j : Nat) (f : AxleRecord → AxleRecord) :
    (x.modify j f).queue.length = x.queue.length := by simp [AxleTracker.modify]

/-- An update that keeps the ordinal keeps every ordinal of the queue. -/
theorem AxleTracker.modify_ordinals (x : AxleTracker) (j : Nat) (f : AxleRecord → AxleRecord)
    (h : ∀ a, (f a).ordinal = a.ordinal) :
    (x.modify j f).queue.map AxleRecord.ordinal = x.queue.map AxleRecord.ordinal := by
  simp only [AxleTracker.modify, List.map_map]
  apply List.map_congr_left
  intro a _
  simp only [Function.comp_apply]
  split <;> simp [h]

/-- The record found after an update in place that keeps the ordinal. -/
theorem AxleTracker.find_modify (x : AxleTracker) (j i : Nat) (f : AxleRecord → AxleRecord)
    (h : ∀ a, (f a).ordinal = a.ordinal) :
    (x.modify j f).find i = if i = j then (x.find i).map f else x.find i := by
  unfold AxleTracker.find AxleTracker.modify
  induction x.queue with
  | nil => simp
  | cons a l ih =>
    simp only [List.map_cons, List.find?_cons]
    by_cases ha : a.ordinal = j
    · by_cases hi : j = i
      · simp [ha, h, hi]
      · have hij : i ≠ j := fun e => hi e.symm
        have hb : (j == i) = false := by simpa using hi
        simp only [ha, if_true, h, hij, if_false, hb] at *
        exact ih
    · by_cases hi : a.ordinal = i
      · have hij : i ≠ j := fun e => ha (hi.trans e)
        simp [hi, hij]
      · have hb : (a.ordinal == i) = false := by simpa using hi
        simp only [ha, if_false, hb] at *
        exact ih

/-- Every estimate handed on keeps the ordinal. -/
theorem AxleRecord.takeEstimate_ordinal (n : Nat) (h : Handed) (a : AxleRecord) :
    (a.takeEstimate n h).ordinal = a.ordinal := by
  unfold AxleRecord.takeEstimate
  split <;> rfl

/-! ## Counters -/

/-- What an addition does to a counter: the sum held at the maximum, the overflow mark set on reaching it from below, all
else kept (R177). -/
theorem Counter.add_spec (q : Nat) (c : Counter) :
    (c.add q).1.value = min counterMax (c.value + q) ∧
      ((c.add q).2 = true ↔ c.value < counterMax ∧ counterMax ≤ c.value + q) ∧
      (c.add q).1.overflow = (c.overflow || (c.add q).2) ∧ (c.add q).1.selection = c.selection := by
  unfold Counter.add
  split
  · rename_i h
    simp [h]
  · rename_i h
    simp [h]

/-- The four updates of `updateCounters`, read one by one. -/
theorem updateCounters_get (f : Counter → Counter × Bool) (s : State) (i : Fin 4) :
    (updateCounters f s).counters[i] = (f s.counters[i]).1 := by
  match i with
  | 0 => rfl
  | 1 => rfl
  | 2 => rfl
  | 3 => rfl

/-! ## Channels of a zone -/

@[simp] theorem ZoneUnit.forActive_windows (k : ZoneTables) (f : ChannelRecord → Channel → Channel) (u : ZoneUnit) :
    (u.forActive k f).windows = u.windows := by
  unfold ZoneUnit.forActive ZoneUnit.ifActive
  cases k.record .north <;> cases k.record .south <;> rfl

/-- An update of each active channel reaches the channels that hold a record and no other. -/
theorem ZoneUnit.forActive_channel (k : ZoneTables) (f : ChannelRecord → Channel → Channel) (u : ZoneUnit) (r : Rail) :
    (u.forActive k f).channel r = match k.record r with
      | some rec => f rec (u.channel r)
      | none => u.channel r := by
  cases r <;> unfold ZoneUnit.forActive ZoneUnit.ifActive <;>
    cases hn : k.record .north <;> cases hs : k.record .south <;> rfl

end Sys2Proof.Machine
end

