-- ==== Sys2Proof/Laws/Weighing.lean ====
section
/-! SUPPORT. What the weighing of a train leaves alone: one lemma per operation of chapters 3 to 7 and 9, by composition. -/

namespace Sys2Proof.Machine

/-- `t` differs from `s` at most in what the weighing of a train writes: pair units, pace tracker, train, axles, zones,
assembly list, axle details, notice register, counters. -/
structure WeighingOnly (s t : State) : Prop where
  part : t.part = s.part
  calEn : t.calEn = s.calEn
  hold : t.hold = s.hold
  rx : t.rx = s.rx
  cal : t.cal = s.cal
  store : t.store = s.store
  consist : t.consist = s.consist
  requests : t.requests = s.requests
  settings : t.settings = s.settings
  pending : t.pending = s.pending
  types : t.asm.types = s.asm.types
  records : t.link.records = s.link.records
  responses : t.link.responses = s.link.responses
  sending : t.link.sending = s.link.sending
  levels : t.notices.levels = s.notices.levels

theorem WeighingOnly.refl (s : State) : WeighingOnly s s := by constructor <;> rfl

theorem WeighingOnly.trans {s t u : State} (h : WeighingOnly s t) (k : WeighingOnly t u) : WeighingOnly s u := by
  constructor
  · exact k.part.trans h.part
  · exact k.calEn.trans h.calEn
  · exact k.hold.trans h.hold
  · exact k.rx.trans h.rx
  · exact k.cal.trans h.cal
  · exact k.store.trans h.store
  · exact k.consist.trans h.consist
  · exact k.requests.trans h.requests
  · exact k.settings.trans h.settings
  · exact k.pending.trans h.pending
  · exact k.types.trans h.types
  · exact k.records.trans h.records
  · exact k.responses.trans h.responses
  · exact k.sending.trans h.sending
  · exact k.levels.trans h.levels

/-- A fold of weighing operations is one. -/
theorem WeighingOnly.foldl {α : Type} {f : State → α → State} (h : ∀ s x, WeighingOnly s (f s x)) (l : List α) (s : State) :
    WeighingOnly s (l.foldl f s) := by
  induction l generalizing s with
  | nil => exact .refl s
  | cons x l ih => exact (h s x).trans (ih _)

/-- A conditional weighing operation is one. -/
theorem WeighingOnly.ite {s a b : State} {c : Prop} [Decidable c] (ha : WeighingOnly s a) (hb : WeighingOnly s b) :
    WeighingOnly s (if c then a else b) := by split <;> assumption

/-! ## Elementary updates -/

theorem raiseCause_weighing (k : NoticeKind) (n : Nat) (s : State) : WeighingOnly s (raiseCause k n s) := by constructor <;> rfl

theorem updateCounters_weighing (f : Counter → Counter × Bool) (s : State) : WeighingOnly s (updateCounters f s) := by
  constructor <;> first | rfl | skip
  unfold updateCounters NoticeUnit.raise NoticeUnit.setEntry
  dsimp only
  split <;> split <;> split <;> split <;> rfl

theorem modifyCtx_weighing (f : TrainContext → TrainContext) (s : State) : WeighingOnly s (modifyCtx f s) := by constructor <;> rfl

theorem startQuiet_weighing (s : State) : WeighingOnly s (startQuiet s) := by constructor <;> rfl

theorem clearPairs_weighing (s : State) : WeighingOnly s (clearPairs s) := by constructor <;> rfl

theorem modifyAxle_weighing (j : Nat) (f : AxleRecord → AxleRecord) (s : State) : WeighingOnly s (modifyAxle j f s) := by constructor <;> rfl

theorem disturbSection_weighing (s : State) : WeighingOnly s (disturbSection s) := by constructor <;> rfl

theorem setZone_weighing (z : Fin 4) (u : ZoneUnit) (s : State) : WeighingOnly s (setZone z u s) := by constructor <;> rfl

theorem mapZones_weighing (f : Fin 4 → ZoneUnit → ZoneUnit) (s : State) : WeighingOnly s (mapZones f s) := by constructor <;> rfl

theorem modifyVehicle_weighing (q : Nat) (f : Vehicle → Vehicle) (s : State) : WeighingOnly s (modifyVehicle q f s) := by constructor <;> rfl

theorem resolveWaiting_weighing (s : State) : WeighingOnly s (resolveWaiting s) := by constructor <;> rfl

theorem lockReset_weighing (s : State) : WeighingOnly s (lockReset s) := by constructor <;> rfl

theorem takePace_weighing (p : Passage) (s : State) : WeighingOnly s (takePace p s) := by constructor <;> rfl

theorem startTrain_weighing (d : Direction) (s : State) : WeighingOnly s (startTrain d s) := by constructor <;> rfl

/-- A pair unit replaced. -/
theorem setPairUnit_weighing (p : Pair) (u : PairUnit) (s : State) : WeighingOnly s (setPairUnit p u s) := by
  cases p <;> constructor <;> rfl

/-- Any update of the train, the axles, the Assembly List past the Type Table, or the zones. -/
theorem with_weighing (s : State) (tr : TrainControl) (x : AxleTracker) (l : List Vehicle) (n k : Nat) :
    WeighingOnly s
      { s with train := tr, axles := x, asm := { s.asm with list := l, nextSeq := n, firstFree := k } } := by
  constructor <;> rfl

theorem countEvent_weighing (e : CounterEvent) (n : Nat) (s : State) : WeighingOnly s (countEvent e n s) :=
  updateCounters_weighing _ s

theorem countInBand_weighing (v : Nat) (s : State) : WeighingOnly s (countInBand v s) := updateCounters_weighing _ s

theorem sampleOccupancy_weighing (s : State) : WeighingOnly s (sampleOccupancy s) := updateCounters_weighing _ s

theorem offerDetail_weighing (d : AxleDetail) (s : State) : WeighingOnly s (offerDetail d s) := by
  unfold offerDetail
  split
  · constructor <;> rfl
  · exact modifyCtx_weighing _ s

/-! ## Zone Units -/

theorem handEstimate_weighing (h : Handed) (s : State) : WeighingOnly s (handEstimate h s) := by
  unfold handEstimate
  exact (WeighingOnly.ite (.refl s) (countEvent_weighing _ _ s)).trans (modifyAxle_weighing _ _ _)

theorem handEstimates_weighing (hs : List Handed) (s : State) : WeighingOnly s (handEstimates hs s) :=
  .foldl (fun s h => handEstimate_weighing h s) hs s

theorem phantom_weighing (z : Fin 4) (r : Rail) (s : State) : WeighingOnly s (phantom z r s) := by
  unfold phantom
  exact (countEvent_weighing _ _ s).trans (.ite (raiseCause_weighing _ _ _) (.refl _))

theorem scanZone_weighing (t : Scan) (m : Option (Scan × Scan)) (xs : List Sample) (s : State) (z : Fin 4) :
    WeighingOnly s (scanZone t m xs s z) := by
  unfold scanZone
  split
  · exact (((setZone_weighing _ _ s).trans (handEstimates_weighing _ _)).trans
      (.foldl (fun s p => phantom_weighing _ p s) _ _)).trans (.foldl (fun s p => raiseCause_weighing _ _ s) _ _)
  · exact .refl s

theorem scanZones_weighing (t : Scan) (m : Option (Scan × Scan)) (xs : List Sample) (s : State) :
    WeighingOnly s (scanZones t m xs s) := .foldl (scanZone_weighing t m xs) _ s

theorem cancelWindows_weighing (s : State) : WeighingOnly s (cancelWindows s) :=
  .foldl (fun s _ => (setZone_weighing _ _ s).trans (handEstimates_weighing _ _)) _ s

theorem predictZone_weighing (j g : Nat) (t : T16) (p : Nat) (s : State) (z : Fin 4) :
    WeighingOnly s (predictZone j g t p s z) := by
  unfold predictZone
  split
  · exact (setZone_weighing _ _ s).trans (handEstimates_weighing _ _)
  · exact .refl s

theorem predictWindows_weighing (j g : Nat) (t : T16) (p : Nat) (s : State) :
    WeighingOnly s (predictWindows j g t p s) := .foldl (predictZone_weighing j g t p) _ s

/-! ## Vehicle Assembler -/

theorem beginWait_weighing (q : Nat) (s : State) : WeighingOnly s (beginWait q s) := by constructor <;> rfl

theorem resolveAtCompletion_weighing (q : Nat) (s : State) : WeighingOnly s (resolveAtCompletion q s) := by
  unfold resolveAtCompletion
  repeat' split
  all_goals first | exact .refl s | exact modifyVehicle_weighing _ _ s | exact beginWait_weighing _ s

theorem completeVehicle_weighing (q : Nat) (s : State) : WeighingOnly s (completeVehicle q s) :=
  (modifyVehicle_weighing _ _ s).trans (resolveAtCompletion_weighing _ _)

theorem reportClearance_weighing (j : Nat) (s : State) : WeighingOnly s (reportClearance j s) := by
  unfold reportClearance
  split
  · exact completeVehicle_weighing _ s
  · exact .refl s

theorem formVehicle_weighing (v : Vehicle) (s : State) : WeighingOnly s (formVehicle v s) := by
  unfold formVehicle
  have h := with_weighing s s.train (s.axles.assign v (some v.sequence)) (s.asm.list ++ [v]) (s.asm.nextSeq + 1)
    (v.first + v.count)
  exact .ite (h.trans (completeVehicle_weighing _ _)) h

theorem considerFrom_weighing (n : Nat) (s : State) : WeighingOnly s (considerFrom n s) := by
  induction n generalizing s with
  | zero => exact .refl s
  | succ n ih =>
    unfold considerFrom
    split
    · exact (formVehicle_weighing _ s).trans (ih _)
    · exact .refl s

theorem considerFormation_weighing (s : State) : WeighingOnly s (considerFormation s) := considerFrom_weighing _ s

theorem dissolveVehicle_weighing (j : Nat) (s : State) : WeighingOnly s (dissolveVehicle j s) := by
  unfold dissolveVehicle
  repeat' split
  · exact with_weighing s s.train _ _ _ _
  · exact .refl s
  · exact .refl s

theorem revertVehicle_weighing (q : Nat) (s : State) : WeighingOnly s (revertVehicle q s) := modifyVehicle_weighing _ _ s

/-! ## Train Control and Axle Tracking -/

theorem discardAbove_weighing (j : Nat) (s : State) : WeighingOnly s (discardAbove j s) := by constructor <;> rfl

theorem flushAbort_weighing (s : State) : WeighingOnly s (flushAbort s) := by constructor <;> rfl

theorem flushQuiet_weighing (s : State) : WeighingOnly s (flushQuiet s) :=
  (discardAbove_weighing _ s).trans (considerFormation_weighing _)

theorem enterEnding_weighing (e : EndReason) (s : State) : WeighingOnly s (enterEnding e s) := by
  unfold enterEnding
  extract_lets s1 tr s2 s3
  have h : WeighingOnly s s3 :=
    (modifyCtx_weighing _ s).trans (WeighingOnly.trans (by constructor <;> rfl : WeighingOnly s1 s2)
      ((clearPairs_weighing s2).trans ((mapZones_weighing _ _).trans (resolveWaiting_weighing _))))
  exact h.trans (.ite (flushQuiet_weighing _) (flushAbort_weighing _))

theorem abortWith_weighing (e : EndReason) (s : State) : WeighingOnly s (abortWith e s) :=
  (raiseCause_weighing _ _ s).trans (enterEnding_weighing _ _)

theorem motion_weighing (s : State) : WeighingOnly s (motion s) := by
  unfold motion
  exact (((modifyCtx_weighing _ s).trans (lockReset_weighing _)).trans (cancelWindows_weighing _)).trans
    (disturbSection_weighing _)

theorem reverseMotion_weighing (s : State) : WeighingOnly s (reverseMotion s) :=
  (modifyCtx_weighing _ s).trans (motion_weighing _)

theorem standstill_weighing (s : State) : WeighingOnly s (standstill s) := by
  unfold standstill
  extract_lets s1 tr
  have h : WeighingOnly s s1 := (modifyCtx_weighing _ s).trans (motion_weighing _)
  clear_value s1
  exact h.trans (by constructor <;> rfl)

theorem handOn_weighing (j : Nat) (p : Passage) (s : State) : WeighingOnly s (handOn j p s) := by
  unfold handOn
  extract_lets s1 s2
  have h : WeighingOnly s s2 := (takePace_weighing p s).trans (modifyAxle_weighing _ _ _)
  split
  · exact h.trans (predictWindows_weighing _ _ _ _ _)
  · exact h

theorem enterNew_weighing (p : Passage) (s : State) : WeighingOnly s (enterNew p s) := by
  unfold enterNew
  refine WeighingOnly.trans ?_ ((handOn_weighing _ _ _).trans (considerFormation_weighing _))
  constructor <;> rfl

theorem reEnter_weighing (p : Passage) (s : State) : WeighingOnly s (reEnter p s) := by
  unfold reEnter
  extract_lets j sp e x s1
  have h : WeighingOnly s s1 := by constructor <;> rfl
  refine WeighingOnly.trans ?_ (considerFormation_weighing _)
  split
  · exact h.trans ((modifyAxle_weighing _ _ _).trans (handOn_weighing _ _ _))
  · exact h.trans (takePace_weighing p _)

theorem carryEntry_weighing (p : Passage) (s : State) : WeighingOnly s (carryEntry p s) := by
  unfold carryEntry
  refine .ite (.ite ?_ (.ite ?_ ?_)) ?_
  · exact abortWith_weighing _ s
  · exact abortWith_weighing _ s
  · exact (modifyCtx_weighing _ s).trans (enterNew_weighing _ _)
  · exact (modifyCtx_weighing _ s).trans (reEnter_weighing _ _)

theorem unexpected_weighing (p : Passage) (s : State) : WeighingOnly s (unexpected p s) :=
  (modifyCtx_weighing _ s).trans (raiseCause_weighing _ _ _)

theorem backOut_weighing (s : State) : WeighingOnly s (backOut s) := by
  unfold backOut
  extract_lets j s1 x s2 s3
  have h : WeighingOnly s s2 := by constructor <;> rfl
  have k : WeighingOnly s s3 := h.trans ((modifyAxle_weighing _ _ s2).trans (mapZones_weighing _ _))
  exact k.trans ((dissolveVehicle_weighing _ _).trans (considerFormation_weighing _))

theorem finalizeAxle_weighing (a : AxleRecord) (p : Passage) (s : State) : WeighingOnly s (finalizeAxle a p s) := by
  unfold finalizeAxle
  extract_lets b s1 s2 s3 s4 s5
  have h2 : WeighingOnly s s2 := (mapZones_weighing _ s).trans (countEvent_weighing _ _ _)
  have h3 : WeighingOnly s s3 := h2.trans (modifyAxle_weighing _ _ _)
  have h4 : WeighingOnly s s4 := h3.trans (.ite (countEvent_weighing _ _ _) (.refl _))
  have h5 : WeighingOnly s s5 := h4.trans (countInBand_weighing _ _)
  exact h5.trans (.ite (offerDetail_weighing _ _) (.refl _))

theorem exitAxle_weighing (p : Passage) (s : State) : WeighingOnly s (exitAxle p s) := by
  unfold exitAxle
  extract_lets j s1 x s2
  have h : WeighingOnly s s2 := by constructor <;> rfl
  split
  · exact h.trans ((WeighingOnly.ite (.refl _) (finalizeAxle_weighing _ _ _)).trans (reportClearance_weighing _ _))
  · exact h

theorem returnAxle_weighing (s : State) : WeighingOnly s (returnAxle s) := by
  unfold returnAxle
  extract_lets j s1 x s2 s3
  have h : WeighingOnly s s2 := by constructor <;> rfl
  have k : WeighingOnly s s3 := h.trans (modifyAxle_weighing _ _ _)
  split
  · split
    · exact k.trans (revertVehicle_weighing _ _)
    · exact k
  · exact h.trans (modifyCtx_weighing _ _)

theorem classify_weighing (p : Passage) (s : State) : WeighingOnly s (classify p s) := by
  unfold classify
  extract_lets d m
  have h : WeighingOnly s m := reverseMotion_weighing s
  refine .ite (.ite ?_ (.ite ?_ ?_)) (.ite (.ite ?_ ?_) (.ite ?_ ?_))
  · exact carryEntry_weighing p s
  · exact exitAxle_weighing p s
  · exact unexpected_weighing p s
  · exact h.trans (backOut_weighing _)
  · exact h.trans (unexpected_weighing p _)
  · exact h.trans (returnAxle_weighing _)
  · exact h.trans (unexpected_weighing p _)

theorem takePassage_weighing (p : Passage) (s : State) : WeighingOnly s (takePassage p s) := by
  have running : WeighingOnly s (passageInTrain p s) :=
    (WeighingOnly.trans (by constructor <;> rfl) (startQuiet_weighing { s with train := { s.train with state := .running } })).trans
      (classify_weighing p _)
  unfold takePassage
  split
  · unfold passageInIdle
    split
    · refine .ite ((startTrain_weighing _ s).trans (classify_weighing p _)) ?_
      constructor <;> rfl
    · exact raiseCause_weighing _ _ s
  · exact running
  · exact running
  · exact (modifyCtx_weighing _ s).trans (raiseCause_weighing _ _ _)
  · constructor <;> rfl

/-- What a wheel event can change (R31 to R80). -/
theorem takeEvent_weighing (x : Detector) (t : T16) (s : State) : WeighingOnly s (takeEvent x t s) := by
  unfold takeEvent
  extract_lets r s1 s2
  have h : WeighingOnly s s2 := (setPairUnit_weighing _ _ s).trans (.ite (raiseCause_weighing _ _ _) (.refl _))
  split
  · exact h.trans (takePassage_weighing _ _)
  · exact h

/-- What an expiry of the quiet timer can change (R55). -/
theorem quietExpiry_weighing (s : State) : WeighingOnly s (quietExpiry s) := by
  unfold quietExpiry
  split
  · exact .ite (standstill_weighing s) (enterEnding_weighing _ s)
  · exact startQuiet_weighing s
  · constructor <;> rfl
  · exact .refl s
  · exact .refl s

/-- What an accepted scan hands over can change, T apart (R25, R26, R83). -/
theorem handOver_weighing (m : Option (Scan × Scan)) (xs : List Sample) (s : State) : WeighingOnly s (handOver m xs s) := by
  have faults (xs : List Sample) : ∀ (n : Nat) (s : State), WeighingOnly s (sampleFaults n xs s) := by
    induction xs with
    | nil => exact fun n s => .refl s
    | cons x xs ih => exact fun n s => (WeighingOnly.ite (.refl s) (raiseCause_weighing _ _ s)).trans (ih _ _)
  unfold handOver
  extract_lets s1
  exact (sampleOccupancy_weighing s).trans (.ite ((faults xs 0 s1).trans (scanZones_weighing _ _ _ _)) (.refl _))

end Sys2Proof.Machine
end

