-- ==== Sys2Proof/Laws/Wire.lean ====
section
/-! SUPPORT. Bytes: the length and the value of a big-endian field, and the check of R179. -/

namespace Sys2Proof.Machine

@[simp] theorem natBytes_length (n v : Nat) : (natBytes n v).length = n := by
  induction n generalizing v with
  | zero => rfl
  | succ n ih => simp [natBytes, ih]

@[simp] theorem intBytes_length (n : Nat) (v : Int) : (intBytes n v).length = n := natBytes_length _ _

@[simp] theorem optBytes_length (n : Nat) (v : Option Nat) : (optBytes n v).length = n := natBytes_length _ _

/-- The value of a byte string with one more byte behind it. -/
theorem be_append_one (l : List Byte) (b : Byte) : be (l ++ [b]) = be l * 256 + b.toNat := by simp [be]

/-- A field of n bytes reads back the value modulo 256^n. -/
theorem be_natBytes (n v : Nat) : be (natBytes n v) = v % 256 ^ n := by
  induction n generalizing v with
  | zero => simp [natBytes, be, Nat.mod_one]
  | succ n ih =>
    rw [natBytes, be_append_one, ih, Nat.pow_succ, Nat.mul_comm (256 ^ n) 256, Nat.mod_mul]
    simp
    omega

/-- The field at the front of a payload. -/
theorem natAt_front (n v : Nat) (rest : List Byte) : natAt (natBytes n v ++ rest) 0 n = v % 256 ^ n := by
  simp [natAt, be_natBytes]

/-- The field behind `off` bytes of a payload. -/
theorem natAt_behind (pre p : List Byte) (off n : Nat) (h : pre.length = off) :
    natAt (pre ++ p) off n = natAt p 0 n := by simp [natAt, ← h]

/-- The sum of a word and its complement is 0xFFFF: the check the sender transmits passes the receiver's test (R179). -/
theorem addCarry_complement (a : Word16) : addCarry a (~~~a) = 0xFFFF#16 := by
  have h : a.toNat + (~~~a).toNat = 65535 := by
    have := a.isLt
    simp only [BitVec.toNat_not]
    omega
  simp only [addCarry, h]

theorem checkPasses_frameCheck (bytes : List Byte) : checkPasses bytes (frameCheck bytes) = true := by
  simp [checkPasses, frameCheck, addCarry_complement]

end Sys2Proof.Machine
end

