-- ==== Sys2Proof/WellFormed.lean ====
section
/-! DEFINITION. Which commands can occur as their row describes them. `exec` is total and does not rest on it: an
ill-formed command is given the effect of the event it really is (notes/assumptions/17.md). -/

namespace Sys2Proof

/-- The operands fit the row's event: a complete inbound frame has at most 34 payload bytes (R14, R178); an oversized
header declares more; a frame of UNDEFINED_KIND_FRAME fails its check or has none of the three kinds (R15); a sequence
number is 1..4,095 (R129). -/
def Instr.wf : Instr → Bool
  | .scanFrame p _ | .wheelFrame p _ | .requestFrame p _ => decide (p.length ≤ Machine.maxInboundPayload)
  | .undefinedKindFrame k p c =>
      decide (p.length ≤ Machine.maxInboundPayload) &&
        (!Machine.checkPasses (Machine.checkedBytes k p) c ||
          (k != Machine.kindScan && k != Machine.kindWheel && k != Machine.kindRequest))
  | .oversizedPayloadLength n => decide (Machine.maxInboundPayload < n.toNat)
  | .idWaitExpiry q => decide (1 ≤ q ∧ q ≤ 4095)
  | .powerOnReset | .startUpLoad _ | .frameByteTimeout | .silenceTimeout | .quietTimerExpiry => true
  | .vehicleRelease | .summaryPlaced | .readStatus | .readTable | .readNotices | .clearNotices => true
  | .writeGeometry | .writeChannel | .writeSpeedCurve | .writeLimits | .commitCalibration _ => true
  | .commitComplete _ | .writeSettings | .writeType | .appendConsist | .clearConsist | .writeLevel => true
  | .writeCounter | .readCounters | .resetCounters | .abortTrain | .restart | .unknownRequest => true
  | .calEnChange _ | .rlHoldAssert | .rlHoldRelease _ | .frameEnd _ => true

end Sys2Proof
end

