-- ==== Sys2Proof/Tests/Slice0.lean ====
section
/-! SUPPORT. Tests of single definitions and single steps, with expected values from the manual's worked examples (each
names its section), the smoke test of well-formedness, and for every statement with hypotheses a witness that they can
be met (`witness_<statement>`), clause by clause at boundary values. -/

namespace Sys2Proof.Machine.Tests

-- One test at a time: each waits for the kernel, and all of them waiting together take a thread each.
set_option Elab.async false

/-! ## The section of the worked case and small states -/

/-- The Geometry Record of section 1.6. -/
def geo : GeometryRecord :=
  { fScan := 4000, dW := 1500, dE := 1500, cE := 9800, minAxleSpacing := 1800
    zones := [⟨3000, 3600⟩, ⟨4200, 4800⟩, ⟨5400, 6000⟩, ⟨6600, 7200⟩] }

/-- A section of one zone at the bounds of R8. -/
def geoMin : GeometryRecord :=
  { fScan := 1000, dW := 300, dE := 300, cE := 2000, minAxleSpacing := 800, zones := [⟨500, 800⟩] }

/-- The channel of sections 6.8 and 7.8. -/
def chan : ChannelRecord := { zeroCal := 200, gain := 32768, zeroRange := 500, threshold := 2000 }

def channels : Vector (Option ChannelRecord) 8 :=
  #v[some chan, some chan, some chan, some chan, some chan, some chan, some chan, some chan]

/-- The Speed Curve of section 7.8. -/
def curve : Vector CurvePoint 8 :=
  #v[⟨50, 32000⟩, ⟨150, 32300⟩, ⟨300, 32700⟩, ⟨500, 33000⟩, ⟨700, 33400⟩, ⟨900, 33800⟩, ⟨1100, 34300⟩, ⟨1300, 34900⟩]

/-- The tables of the worked case, as a start-up load leaves them. -/
def tables : Calibration := { Calibration.reset with geometry := some geo, channels := channels, curve := some curve, origin := .loaded }

/-- A READY part, SYNCED as in section 2.7, no train. -/
def idle : State :=
  { State.reset with
    part := .ready
    cal := tables
    rx := { time := 200000, lastScan := 65534, synced := true, syncScan := 199000, silence := true } }

/-- The context of a train. -/
def ctx : TrainContext := newContext 31 .eastbound 199500 0

/-- A train that runs on an empty section, its quiet timer due now. -/
def running : State :=
  { idle with train := { state := .running, ctx := some ctx, nextNumber := 32, quiet := some 200000, ignoredBetween := 0 } }

/-- The train of `running` in another state. -/
def train (st : TrainState) : State := { running with train := { running.train with state := st } }

/-- An axle record with nothing measured. -/
def axle (j : Nat) : AxleRecord :=
  { ordinal := j, entryTime := 3200000, entryPace := 6400, paceSource := .own, speed := 720, epoch := 0, generation := 1
    spacing := none, finalized := false, exitTime := none, exitPace := none, estimates := noEstimates, north := none
    south := none, axleLoad := none, flags := 0, vehicle := none }

/-- A train with axles 1 to n entered and held, none cleared. -/
def entered (n : Nat) : State :=
  { running with
    train := { running.train with ctx := some { ctx with entries := BitVec.ofNat 32 n } }
    axles := { highest := n, firstOn := 1, lastOn := n, lowestHeld := 1, queue := (List.range n).map fun i => axle (i + 1) } }

/-- A passage of the worked pace between two detectors. -/
def passage (y x : Detector) : Passage := makePassage (some geo) y 3200000 x 3204800

/-- A request, and the part with that request alone in its buffer. -/
def req (code : Byte) (payload : List Byte) : Request := { tag := 20, code := code, payload := payload }

def asked (code : Byte) (payload : List Byte) (s : State) : State := { s with requests := [req code payload] }

/-- The state after a command. -/
def after (c : Instr) (s : State) : State :=
  match exec c s with
  | .next t => t
  | .fault _ => s
  | .refused _ => s

/-- A COMPLETE vehicle of one axle, weighed at 25,104 kg (section 7.8). -/
def totals : VehicleTotals := { gross := some 25104, nTotal := some 12705, sTotal := some 12399, net := none, speed := 720, flags := 0 }

def vehicle (q : Nat) (st : VehicleState) (r : Resolution) : Vehicle :=
  { sequence := q, first := q, count := 1, typeCode := 21, kind := .wagon, tare := none, maxGross := none, unmatched := false
    uncertain := false, state := st, resolution := r, idFlags := 0 }

/-- The train of `running` with these vehicles. -/
def assembled (l : List Vehicle) : State := { running with asm := { running.asm with list := l, nextSeq := l.length + 1 } }

def response : Response := { tag := 1, code := 1, status := .ok, payload := [] }

def outFrame : OutFrame := responseFrame response

def summary : QueueRecord := .summary { ctx := ctx, counter := 0, calPending := false }

/-! ## Well-formed commands: each check refuses an ill-formed term -/

theorem wf_scan_payload_too_long : (Instr.scanFrame (List.replicate 35 0) 0).wf = false := by decide
theorem wf_wheel_payload_too_long : (Instr.wheelFrame (List.replicate 35 0) 0).wf = false := by decide
theorem wf_request_payload_too_long : (Instr.requestFrame (List.replicate 35 0) 0).wf = false := by decide
theorem wf_undefined_kind_too_long : (Instr.undefinedKindFrame 9 (List.replicate 35 0) 0).wf = false := by decide
theorem wf_undefined_kind_of_a_known_kind : (Instr.undefinedKindFrame 3 [1, 1] 0xF9FE).wf = false := by decide
theorem wf_length_not_oversized : (Instr.oversizedPayloadLength 34).wf = false := by decide
theorem wf_sequence_zero : (Instr.idWaitExpiry 0).wf = false := by decide
theorem wf_sequence_too_high : (Instr.idWaitExpiry 4096).wf = false := by decide
theorem wf_well_formed : (Instr.requestFrame (List.replicate 34 0) 0).wf = true ∧ (Instr.oversizedPayloadLength 35).wf = true
    ∧ (Instr.idWaitExpiry 4095).wf = true ∧ (Instr.undefinedKindFrame 4 [1, 1] 0).wf = true := by decide

/-! ## Worked values of the manual -/

/-- Section 13.1: the check of a TRACK_SYNC_LOST notice. -/
theorem test_check_of_a_notice : frameCheck [0x84, 0x00, 0x04, 0x05, 0x01, 0x00, 0x01] = 0x75FA := by decide

/-- Section 3.2: the entry of the worked case, and the passage whose times are reversed. -/
theorem test_passage_pace_and_speed :
    ((makePassage (some geo) .w1 155200 .w2 160000).pace, (makePassage (some geo) .w1 155200 .w2 160000).speed) = (some 6400, some 720)
      ∧ ((makePassage (some geo) .e2 3200124 .e1 3200040).transit, (makePassage (some geo) .e2 3200124 .e1 3200040).pace,
        (makePassage (some geo) .e2 3200124 .e1 3200040).speed) = (1, some 1, some 65535) := by decide

/-- Section 3.4: the lock and the running pace after the fifth and the ninth entry. -/
theorem test_pace_sequence :
    (fun t : PaceTracker => (t.lock, t.running)) ([6400, 6420, 6409, 6388, 6400].foldl (fun t p => t.take p) PaceTracker.reset) = (.fine, some 6404)
      ∧ (fun t : PaceTracker => (t.lock, t.running, t.coarse))
        ([6400, 6420, 6409, 6388, 6400, 6560, 6800, 7200, 8000].foldl (fun t p => t.take p) PaceTracker.reset) = (.none, some 7140, 0) := by decide

/-- Section 6.8: the zone 1 window of ordinal 1. -/
theorem test_window_of_zone_1 :
    (fun w : Window => (w.start, w.stop, w.inScan, w.outScan)) (zoneWindow geo .eastbound 1 ⟨3000, 3600⟩ 1 1 160000 6400)
      = (10615, 10705, 10600, 10720) := by decide

/-- Section 1.6: a westbound train meets zone 4 at 2,600 mm, 8,320 t16 after the reference at the pace of 6,400. -/
theorem test_window_westbound : (zoneWindow geo .westbound 1 ⟨6600, 7200⟩ 1 1 160000 6400).inScan = 10520 := by decide

/-- Section 6.9: a block of 64 scans that sums to 13,120 moves B8 from 1,600 to 1,605. -/
theorem test_baseline_block :
    ({ Channel.reset with baseline := 1600, blockCount := 63, blockSum := 13120 - 205 } : Channel).track chan false ⟨205, .ok⟩
      = ({ Channel.reset with baseline := 1605 }, false) := by decide

/-- Section 6.9: with zero_range 2 the block is not used and CHANNEL_FAULT is raised. -/
theorem test_baseline_out_of_range :
    ({ Channel.reset with baseline := 1600, blockCount := 63, blockSum := 13120 - 205 } : Channel).track { chan with zeroRange := 2 } false ⟨205, .ok⟩
      = ({ Channel.reset with baseline := 1600, zeroFault := true }, true) := by decide

/-- Section 7.8: zone 1 North weighs 12,400 kg. -/
def seen (sum : Int) (n : Nat) : RailWindow :=
  { sum := sum, count := n, fault := false, onSeen := true, offSeen := true, closeBase := some 1600, decided := none }

def window : Window :=
  { ordinal := 1, generation := 1, start := 10615, stop := 10705, inScan := 10600, outScan := 10720, state := .awaitingOff
    gap := false, north := seen 2275000 91, south := seen 2275000 91 }

theorem test_wheel_mass :
    (fun h : Handed => (h.condition, h.mass)) (decideEstimate window 0 Channel.reset (some chan) (seen 2275000 91)) = (.valid, some 12400) := by decide

/-- Section 7.10: S8 = −1,000 is SATURATED below zero, S8 = −500 is VALID at 0 kg. -/
theorem test_wheel_mass_edges :
    (fun h : Handed => (h.condition, h.mass, h.belowZero)) (decideEstimate window 0 Channel.reset (some chan) (seen 18075 91)) = (.saturated, none, true)
      ∧ (fun h : Handed => (h.condition, h.mass))
        (decideEstimate window 0 Channel.reset (some chan) { seen 18075 91 with sum := 0, closeBase := some 5, count := 100 }) = (.valid, some 0) := by decide

/-- Sections 7.8 and 7.10: the speed factor on the curve and on a falling segment. -/
theorem test_speed_factor : curveFactor curve 720 = 33440 ∧ curveFactor (curve.set 4 ⟨700, 32997⟩) 600 = 32999
    ∧ curveFactor curve 1400 = 34900 ∧ curveFactor curve 40 = 32000 := by decide

/-- The record of ordinal 1 before its exit (section 7.8). -/
def weighed : AxleRecord :=
  { axle 1 with
    flags := AxleFlag.paceUnlocked.mask
    estimates :=
      #v[some ⟨.valid, some 12400⟩, some ⟨.valid, some 12100⟩, some ⟨.valid, some 12600⟩, some ⟨.valid, some 12000⟩,
        some ⟨.valid, some 12300⟩, some ⟨.valid, some 12300⟩, some ⟨.valid, some 12500⟩, some ⟨.valid, some 12200⟩] }

/-- Section 7.8: rail loads, axle load and flags of ordinal 1; section 7.9: too few VALID rails leave it UNWEIGHED. -/
theorem test_combine :
    (fun a : AxleRecord => (a.north, a.south, a.axleLoad, a.flags)) (weighed.combine Limits.default (some curve) [0, 1, 2, 3] 6560)
        = (some 12705, some 12399, some 25104, AxleFlag.paceUnlocked.mask)
      ∧ (fun a : AxleRecord => (a.north, a.axleLoad, a.flags)) ((axle 1).combine Limits.default (some curve) [0, 1, 2, 3] 40000)
        = (none, none, AxleFlag.unweighed.mask ||| AxleFlag.accel.mask) := by decide

/-- An axle of section 9.7. -/
def loaded (j n s v : Nat) (fs : AxleFlags) : AxleRecord :=
  { axle j with north := some n, south := some s, axleLoad := some (n + s), speed := v, flags := fs, finalized := true }

/-- Section 9.7: vehicle 1, and vehicle 3 with its SIDE_IMBALANCE. -/
theorem test_vehicle_totals :
    (fun x : VehicleTotals => (x.gross, x.nTotal, x.sTotal, x.net, x.speed, x.flags))
        (vehicleTotals Limits.default { vehicle 1 .formed .unresolved with count := 4, tare := some 21000, maxGross := some 106000 }
          [some (loaded 1 12705 12399 720 1), some (loaded 2 12580 12470 718 1), some (loaded 3 12540 12440 719 0), some (loaded 4 12600 12520 721 0)])
        = (some 100254, some 50425, some 49829, some 79254, 720, 1)
      ∧ (fun x : VehicleTotals => (x.gross, x.speed, x.flags))
        (vehicleTotals Limits.default { vehicle 3 .formed .unresolved with count := 2, unmatched := true }
          [some (loaded 9 9400 6620 576 1), some (loaded 10 9350 6590 544 1)])
        = (some 31960, 560, VehicleFlag.unmatched.mask ||| VehicleFlag.sideImbalance.mask ||| 1) := by decide

/-- Types 21 and 40 of section 9.7. -/
def type21 : VehicleType :=
  { code := 21, kind := .wagon, tolerance := 100, gapMin := 2500, tare := some 21000, maxGross := some 106000, spacings := [1800, 7600, 1800] }

def type40 : VehicleType :=
  { code := 40, kind := .loco, tolerance := 150, gapMin := 2500, tare := none, maxGross := some 200000, spacings := [2000, 2000, 11400, 2000, 2000] }

/-- The axles of section 9.7 from ordinal k, with these spacings, the last of them the newest on the section. -/
def spaced (k : Nat) (l : List (Option Nat)) : AxleTracker :=
  { highest := k + l.length - 1, firstOn := k, lastOn := k + l.length - 1, lowestHeld := k
    queue := l.zipIdx.map fun x => { axle (k + x.2) with spacing := x.1 } }

/-- Section 9.7: index 0 matches k = 1 at the entry of 5 and not before; index 2 is undecided for k = 13. -/
theorem test_type_judgments :
    (spaced 1 [none, some 1794, some 7610, some 1805, some 3050]).judge false 1 type21 = .fits false
      ∧ (spaced 1 [none, some 1794, some 7610, some 1805]).judge false 1 type21 = .undecided
      ∧ (spaced 5 [some 3050, some 1810, some 9580]).judge false 5 type21 = .fails
      ∧ (spaced 13 [some 3000, some 2010, some 1990, none, some 2020, some 1980]).judge false 13 type40 = .undecided := by decide

/-! ## Single steps -/

/-- Section 2.7, frame 4: a gap of 3 carries T by 3 and raises SCAN_GAP with 2. -/
theorem test_scan_gap :
    (fun s : State => (s.rx.time, s.rx.lastScan, (s.notices.entry .scanGap).lastArg))
        (after (Inbound.scan 3 (List.replicate 8 ⟨200, .ok⟩)).command { idle with rx := { idle.rx with time := 200002, lastScan := 0 }, hold := true })
      = (200005, 3, 2) := by decide +kernel

/-- Section 2.7, frame 9: a jump loses sync and synchronizes. -/
theorem test_scan_jump :
    (fun s : State => (s.rx.time, s.rx.lastScan, s.rx.syncScan, s.rx.synced, s.west.pending.isNone, (s.notices.entry .trackSyncLost).lastArg))
        (after (Inbound.scan 1003 (List.replicate 8 ⟨200, .ok⟩)).command
          { idle with rx := { idle.rx with time := 200005, lastScan := 3 }, hold := true, west := { pending := some (.w1, 3200005), rockCount := 2 } })
      = (200006, 1003, 200006, true, true, 1) := by decide +kernel

/-- Section 2.7, frames 3 and 6: a late W1 and an early E2. -/
theorem test_wheel_placed :
    (after (Inbound.wheel .w1 65534 5).command { idle with rx := { idle.rx with time := 200002, lastScan := 0 } }).west.pending = some (.w1, 3200005)
      ∧ (after (Inbound.wheel .e2 5 12).command { idle with rx := { idle.rx with time := 200005, lastScan := 3 } }).east.pending
        = some (.e2, 3200124) := by decide +kernel

/-- Section 2.7, frame 10: an event before the present synchronization is discarded. -/
theorem test_wheel_discarded :
    (fun s : State => (s.west.pending, (s.notices.entry .eventDiscarded).lastArg))
        (after (Inbound.wheel .w1 1000 0).command
          { idle with rx := { idle.rx with time := 200006, lastScan := 1003, syncScan := 200006 }, hold := true }) = (none, 1) := by decide +kernel

/-- Section 12.4: a request behind four others is dropped with its tag. -/
theorem test_request_overrun :
    (fun s : State => (s.requests.length, (s.notices.entry .mgmtOverrun).lastArg))
        (after (Inbound.request { tag := 44, code := 0x31, payload := [] }).command
          { idle with hold := true, requests := List.replicate 4 (req codeReadStatus []) }) = (4, 44) := by decide +kernel

/-- R14: a header that declares 35 bytes is rejected with reason LENGTH (3), as is a frame that stops (R15). -/
theorem test_frames_abandoned :
    ((after (.oversizedPayloadLength 35) { idle with hold := true }).notices.entry .frameRejected).lastArg = 3
      ∧ ((after .frameByteTimeout { idle with hold := true }).notices.entry .frameRejected).lastArg = 3 := by decide +kernel

/-- R15: a good frame of no kind is rejected with reason KIND (2), one with a wrong check with CHECK (1). -/
theorem test_undefined_kind :
    ((after (.undefinedKindFrame 9 [] (frameCheck (checkedBytes 9 []))) { idle with hold := true }).notices.entry .frameRejected).lastArg = 2
      ∧ ((after (.undefinedKindFrame 9 [] 0) { idle with hold := true }).notices.entry .frameRejected).lastArg = 1 := by decide +kernel

/-- Section 2.8: silence at a standing train ends it with TIME_BASE and keeps T. R24, R2: it empties the presence run of a channel
in use and keeps that of a channel not in use. -/
theorem test_silence :
    (fun s : State => (s.rx.synced, s.rx.time, s.train.state, s.train.ctx.bind TrainContext.endReason))
        (after .silenceTimeout (train .standing)) = (false, 200000, .ending, some .timeBase)
      ∧ (fun s : State => (s.zones[0].north.run, s.zones[1].north.run))
        (after .silenceTimeout { idle with cal := { tables with geometry := some geoMin }, zones := Vector.replicate 4 { ZoneUnit.reset with north := { Channel.reset with run := some (3, 199998) } } })
        = (none, some (3, 199998)) := by decide +kernel

/-- Section 8.9: a reset during a commit leaves a failing image and the counter word. -/
theorem test_reset_during_a_commit :
    (fun s : State => (s.part, s.store.image, s.store.word, s.cal.committing))
        (after .powerOnReset { idle with cal := { tables with committing := some 1, counter := 43 }, store := { word := some 43, image := .writing [1] } })
      = (.starting, .damaged, some 43, none) := by decide +kernel

/-- Section 8.9: the start-up load of that store. -/
theorem test_start_up_after_it :
    (fun s : State => (s.part, s.cal.counter, s.cal.geometry, s.cal.origin, (s.notices.entry .storeFault).lastArg))
        (after (.startUpLoad true) { State.reset with hold := true, store := { word := some 43, image := .damaged } })
      = (.notReady, 43, none, .default, 2) := by decide +kernel

/-- R56: a quiet expiry with axles on the section is a standstill; R57: with none it ends the train. -/
theorem test_quiet_expiry :
    (fun s : State => (s.train.state, s.train.ctx.map fun c => (c.epoch, c.stood, c.disturbed), s.axles.queue.map fun a => hasAxleFlag a.flags .disturbed))
        (after .quietTimerExpiry (entered 2)) = (.standing, some (1, true, false), [true, true])
      ∧ (fun s : State => (s.train.state, s.train.ctx.bind TrainContext.endReason)) (after .quietTimerExpiry running)
        = (.ending, some .quiet) := by decide +kernel

/-- Section 10.4 at 205,000: the append first, or the expiry first. -/
theorem test_append_against_expiry :
    (fun s : State => (s.asm.list.map Vehicle.resolution, s.link.responses.map Response.status))
        (after .appendConsist (asked codeAppendConsist [0, 0, 0, 65] { assembled [vehicle 1 (.complete totals) (.waiting 200000)] with hold := true }))
        = ([.present [65]], [.ok])
      ∧ (fun s : State => (s.asm.list.map Vehicle.resolution, s.link.responses.map Response.status))
        (after .appendConsist (after (.idWaitExpiry 1)
          (asked codeAppendConsist [0, 0, 0, 65] { assembled [vehicle 1 (.complete totals) (.waiting 200000)] with hold := true })))
        = ([.absent], [.late]) := by decide +kernel

/-- R154: a release places the record and counts it; R153: a WAITING head holds back the vehicle behind it. -/
theorem test_release :
    (fun s : State => (s.link.records.length, s.asm.list.length, s.train.ctx.map fun c => (c.vehiclesReleased, c.grossTotal)))
        (after .vehicleRelease { assembled [vehicle 1 (.complete totals) .absent] with hold := true }) = (1, 0, some (1, 25104))
      ∧ (after .vehicleRelease (assembled [vehicle 1 (.complete totals) (.waiting 0), vehicle 2 (.complete totals) .absent])).link.records = []
      := by decide +kernel

/-- R62: after an abort the controller goes to IGNORING, else to IDLE. -/
theorem test_summary :
    (after .summaryPlaced { train .ending with train := { (train .ending).train with ctx := some { ctx with endReason := some .request } } }).train.state = .ignoring
      ∧ (after .summaryPlaced { train .ending with train := { (train .ending).train with ctx := some { ctx with endReason := some .quiet } } }).train.state = .idle
      := by decide +kernel

/-- Section 8.8: the commit of tag 20 reserves its place and takes the counter from 41 to 42; its completion answers. -/
theorem test_commit :
    (fun s : State => (s.link.responses.length, s.cal.counter, s.cal.committing))
        (after (.commitCalibration true) (asked codeCommitCalibration [] { idle with calEn := true, hold := true, cal := { tables with counter := 41, calPending := true } }))
        = (0, 42, some 20)
      ∧ (fun s : State => (s.link.responses.map Response.status, s.cal.calPending, s.cal.committing))
        (after (.commitComplete true) { idle with hold := true, cal := { tables with committing := some 20, calPending := true }, store := { word := some 42, image := .writing [] } })
        = ([.ok], false, none) := by decide +kernel

/-- Section 1.7: a refused write reports the field number (c_E too near zone 4: 5) and changes nothing. -/
theorem test_write_geometry_refused :
    (fun s : State => (s.link.responses.map fun r => (r.status, r.payload), s.cal.geometry))
        (after .writeGeometry (asked codeWriteGeometry (geometryBytes { geo with cE := 7600 }) { idle with calEn := true, hold := true }))
      = ([(.badValue, [5])], some geo) := by decide +kernel

/-- R118: without CAL_EN the write is LOCKED. -/
theorem test_write_locked :
    (after .writeChannel (asked codeWriteChannel [] { idle with hold := true })).link.responses.map Response.status = [.locked] := by decide +kernel

/-- R115, R119: an accepted Channel Record reloads its baseline and sets CAL_PENDING. -/
theorem test_write_channel :
    (fun s : State => ((s.zones[1].south).baseline, s.cal.calPending))
        (after .writeChannel (asked codeWriteChannel (3 :: channelBytes chan) { idle with calEn := true, hold := true })) = (1600, true) := by decide +kernel

/-- R116, R117: a curve of seven points is MALFORMED; Limits with min_zones above Z fail field 3. -/
theorem test_write_curve_and_limits :
    (after .writeSpeedCurve (asked codeWriteSpeedCurve (List.replicate 28 0) { idle with calEn := true, hold := true })).link.responses.map Response.status = [.malformed]
      ∧ (after .writeLimits (asked codeWriteLimits (limitsBytes { Limits.default with minZones := 5 }) { idle with calEn := true, hold := true })).link.responses.map
        Response.payload = [[3]] := by decide +kernel

/-- R168, R182: READ STATUS of an idle READY part: 30 bytes that begin READY, IDLE, next train number 1. -/
theorem test_read_status :
    (after .readStatus (asked codeReadStatus [] { idle with hold := true })).link.responses.map (fun r => (r.payload.length, r.payload.take 4))
      = [(30, [2, 0, 0, 1])] := by decide +kernel

/-- R169, R182: an empty Type Table entry is answered with the mark 0. -/
theorem test_read_table :
    (after .readTable (asked codeReadTable [6, 0, 31] { idle with hold := true })).link.responses.map Response.payload = [[6, 0, 31, 0]] := by decide +kernel

/-- R171, R163: READ NOTICES keeps a pending kind, CLEAR NOTICES clears it, WRITE LEVEL 0 clears its mark alone. -/
theorem test_notices :
    (fun e : NoticeEntry => (e.pending, e.count)) ((after .readNotices (asked codeReadNotices [] { raiseCause .scanGap 2 idle with hold := true })).notices.entry .scanGap) = (true, 1)
      ∧ (fun e : NoticeEntry => (e.pending, e.count, e.lastArg))
        ((after .clearNotices (asked codeClearNotices [] { raiseCause .scanGap 2 idle with hold := true })).notices.entry .scanGap) = (false, 0, 2)
      ∧ (fun e : NoticeEntry => (e.pending, e.count))
        ((after .writeLevel (asked codeWriteLevel [4, 0] { raiseCause .scanGap 2 idle with hold := true })).notices.entry .scanGap) = (false, 1) := by decide +kernel

/-- R170: a quiet_time of 99 fails field 1. R128: an index of 32 is BAD_INDEX. -/
theorem test_settings_and_types :
    (after .writeSettings (asked codeWriteSettings [0, 99, 0, 0, 8, 152, 0] { idle with hold := true })).link.responses.map Response.payload = [[1]]
      ∧ (after .writeType (asked codeWriteType [32] { idle with hold := true })).link.responses.map Response.status = [.badIndex] := by decide +kernel

/-- R148: CLEAR CONSIST is refused during a train. R58: ABORT TRAIN outside one is answered NO_TRAIN. -/
theorem test_clear_and_abort :
    (after .clearConsist (asked codeClearConsist [] { running with hold := true })).link.responses.map Response.status = [.busyTrain]
      ∧ (after .abortTrain (asked codeAbortTrain [] { idle with hold := true })).link.responses.map Response.status = [.noTrain] := by decide +kernel

/-- The counter of section 12.7 that counts rises of the Record Queue to 48. -/
def rises : Counter :=
  { value := 0, overflow := false, previous := false
    selection := { event := .recordQueueOccupancy, threshold := 48, invert := false, edge := true, low := 0, high := 0 } }

/-- Section 12.7: the sample at 48 entries counts once. R177: the maximum holds and raises STATS_FULL. -/
theorem test_counters :
    (rises.sample 48).1.value = 1 ∧ ((rises.sample 48).1.sample 48).1.value = 1
      ∧ (Counter.add 1 { rises with value := 4294967294 }) = ({ rises with value := 4294967295, overflow := true }, true) := by decide

/-- R174, R177: a written counter starts at zero, and event 12 fails field 1; its read is 52 bytes; a reset keeps the
selection. -/
theorem test_counter_requests :
    (after .writeCounter (asked codeWriteCounter [0, 9, 48, 0, 1, 0, 0, 0, 0] { idle with hold := true })).counters[0] = rises
      ∧ (after .writeCounter (asked codeWriteCounter [0, 12, 48, 0, 1, 0, 0, 0, 0] { idle with hold := true })).link.responses.map Response.payload = [[1]]
      ∧ (after .readCounters (asked codeReadCounters [] { idle with hold := true })).link.responses.map (fun r => r.payload.length) = [52]
      ∧ (after .resetCounters (asked codeResetCounters [] { idle with hold := true, counters := #v[{ rises with value := 7 }, rises, rises, rises] })).counters[0] = rises
      := by decide +kernel

/-- Section 12.4: RESTART empties the queues and its OK is the one response. -/
theorem test_restart :
    (fun s : State => (s.train.state, s.requests, s.link.responses.map Response.tag))
        (after .restart { running with hold := true, requests := [req codeRestart [], req codeReadStatus []], link := { running.link with responses := List.replicate 3 response } })
      = (.idle, [], [20]) := by decide +kernel

/-- R167: an unknown code is answered MALFORMED. -/
theorem test_unknown_request :
    (after .unknownRequest (asked 0x55 [1] { idle with hold := true })).link.responses.map Response.status = [.malformed] := by decide +kernel

/-- R118, R158: the pins. -/
theorem test_pins :
    ((after (.calEnChange true) { idle with hold := true }).notices.entry .calEnChanged).lastArg = 1
      ∧ (after .rlHoldAssert idle).hold = true := by decide +kernel

/-- Section 11.6: with a response waiting, the release of the hold sends it before a notice of level 5. -/
theorem test_release_of_the_hold :
    (after (.rlHoldRelease true) { raiseCause .channelFault 6 idle with hold := true, link := { idle.link with responses := [response] } }).link.sending
        = some outFrame
      ∧ ((after (.frameEnd true) { raiseCause .channelFault 6 idle with link := { idle.link with sending := some outFrame } }).link.sending.map OutFrame.payload)
        = some [10, 1, 0, 6] := by decide +kernel

/-! ## Witnesses: the hypotheses of each statement can be met, clause by clause -/

/-- OccurrencesAreCounted: a counter that gets to its maximum, one that stays below it, one that holds it. -/
theorem witness_OccurrencesAreCounted :
    let c : Counter := { Counter.reset with selection := { Selection.reset with event := .scansLost } }
    let s : State := { idle with counters := #v[{ c with value := 4294967294 }, { c with value := 4294967293 }, { c with value := 4294967295 }, Counter.reset] }
    s.counters[0].selection.event = .scansLost ∧ s.counters[0].value < 4294967295 ∧ 4294967295 ≤ s.counters[0].value + 1
      ∧ s.counters[1].value + 1 < 4294967295 ∧ 4294967295 ≤ s.counters[2].value := by decide +kernel

/-- NoticeChoiceIsTheHighest: two pending kinds of one level, one of another, none among the levels 1 to 4. -/
theorem witness_NoticeChoiceIsTheHighest :
    let u := ((NoticeUnit.reset.raise .channelFault 6).raise .recordBacklog 52).raise .calEnChanged 1
    (u.entry .channelFault).pending = true ∧ u.level .channelFault = u.level .recordBacklog ∧ u.choose 5 5 = some .recordBacklog
      ∧ u.choose 5 7 = some .calEnChanged ∧ u.choose 1 4 = none := by decide +kernel

/-- BoundaryStartsTheFirstCandidate: the hold, a frame going out, and each candidate first in turn. -/
theorem witness_BoundaryStartsTheFirstCandidate :
    let n5 := raiseCause .channelFault 6 idle
    let n4 := raiseCause .trainStarted 1 idle
    ({ idle with hold := true }).hold = true ∧ (some outFrame).isSome = true
      ∧ (idle.hold = false ∧ idle.link.sending = none ∧ idle.link.responses = [] ∧ idle.notices.choose 5 7 = none
          ∧ idle.link.records = [] ∧ idle.notices.choose 1 4 = none ∧ idle.link.details = [])
      ∧ n5.notices.choose 5 7 = some .channelFault ∧ (n4.notices.choose 5 7 = none ∧ n4.notices.choose 1 4 = some .trainStarted)
      ∧ ({ idle.link with records := [summary] }).records = summary :: [] ∧ ({ idle.link with responses := [response] }).responses = response :: []
      := by decide +kernel

/-- PowerOnResetRestoresTheInitialState: an image under write, and one that is not. -/
theorem witness_PowerOnResetRestoresTheInitialState :
    ({ idle with store := { word := none, image := .writing [1] } }).store.image = .writing [1] ∧ ∀ b, idle.store.image ≠ .writing b :=
  ⟨rfl, fun _ h => by cases h⟩

/-- The image of the tables of the worked case. -/
def image : List Byte := imageBytes geo channels curve Limits.default

/-- StartUpLoadReadsTheStore: a good, a blank and a damaged image in STARTING, and a part that is past it. -/
theorem witness_StartUpLoadReadsTheStore :
    ({ State.reset with store := { word := some 41, image := .held image } }).part = .starting
      ∧ (parseImage image).isSome = true ∧ State.reset.store.image = .blank
      ∧ (∀ b, ({ State.reset with store := { word := some 43, image := .damaged } }).store.image = .held b → parseImage b = none)
      ∧ StoreImage.damaged ≠ .blank ∧ parseImage (image.map fun b => b + 1) = none ∧ idle.part ≠ .starting := by
  refine ⟨rfl, ?_, rfl, ?_, ?_, ?_, ?_⟩
  · decide +kernel
  · intro b h
    exact StoreImage.noConfusion h
  · decide
  · decide +kernel
  · decide

/-- CommittedImageLoadsBack: four zones with eight Channel Records, and one zone at its bounds with none. -/
theorem witness_CommittedImageLoadsBack :
    (geometryFault Limits.default.minZones geo = none ∧ (∀ ch : Fin 8, channels[ch].bind channelFault = none) ∧ curveFault curve = none
        ∧ limitsFault geo.zones.length Limits.default = none)
      ∧ geometryFault 1 geoMin = none ∧ limitsFault geoMin.zones.length { Limits.default with minZones := 1 } = none := by decide +kernel

/-- AcceptedFramesReadBack: one and eight samples at the bounds of 24 bits, a fraction of 15, a payload of 32 bytes. -/
theorem witness_AcceptedFramesReadBack :
    (Inbound.scan 0 [⟨-8388608, .opened⟩]).valid none = true ∧ (Inbound.scan 65535 (List.replicate 8 ⟨8388607, .ok⟩)).valid (some geo) = true
      ∧ (Inbound.wheel .e2 65535 15).valid none = true ∧ (Inbound.request (req 0x12 (List.replicate 32 255))).valid none = true := by decide +kernel

/-- DeframeReadsTheNextFrame: noise without a delimiter, 34 payload bytes, a declared length of 35. -/
theorem witness_DeframeReadsTheNextFrame :
    (∀ b ∈ ([0x00, 0xA4, 0xFF] : List Byte), b ≠ 0xA5) ∧ (List.replicate 34 (0xA5 : Byte)).length ≤ 34 ∧ 34 < be [0, 35] := by decide

/-- RejectedFramesAreReported: a frame for each check that can fail first. -/
theorem witness_RejectedFramesAreReported :
    let ok (k : Byte) (p : List Byte) := checkPasses (checkedBytes k p) (frameCheck (checkedBytes k p))
    State.reset.part = .starting ∧ idle.part ≠ .starting ∧ 34 < (35 : Word16).toNat
      ∧ checkPasses (checkedBytes kindScan []) 0 = false ∧ checkPasses (checkedBytes kindWheel []) 0 = false
      ∧ checkPasses (checkedBytes kindRequest []) 0 = false ∧ ok 4 (List.replicate 34 0) = true
      ∧ (ok kindScan [0, 0] = true ∧ ∀ m, 1 ≤ m → m ≤ 8 → ([0, 0] : List Byte).length ≠ 2 + 4 * m)
      ∧ (ok kindWheel [1, 0, 0] = true ∧ ([1, 0, 0] : List Byte).length ≠ 4) ∧ (ok kindRequest [1] = true ∧ ([1] : List Byte).length < 2)
      ∧ (ok kindScan (List.replicate 30 0) = true ∧ idle.cal.geometry = some geo ∧ (List.replicate 30 (0 : Byte)).length = 2 + 4 * 7 ∧ 7 ≠ 2 * geo.zones.length)
      ∧ (ok kindScan (List.replicate 34 3) = true ∧ (List.replicate 34 (3 : Byte)).length = 2 + 4 * 8 ∧ 8 = 2 * geo.zones.length
          ∧ 2 < natAt (List.replicate 34 3) (5 + 4 * 7) 1)
      ∧ (ok kindWheel [0, 0, 0, 0] = true ∧ natAt [0, 0, 0, 0] 0 1 = 0) ∧ (ok kindWheel [5, 0, 0, 0] = true ∧ 4 < natAt [5, 0, 0, 0] 0 1)
      ∧ (ok kindWheel [4, 0, 0, 16] = true ∧ 15 < natAt [4, 0, 0, 16] 3 1) := by
  refine ⟨rfl, by decide, by decide, by decide, by decide, by decide, by decide +kernel, ⟨by decide, ?_⟩, by decide, by decide, by decide +kernel,
    by decide +kernel, by decide, by decide, by decide⟩
  intro m h _ e
  simp at e
  omega

/-- ScansAdvanceTimeByTheirNumber: unsynced; d of 0, 1, 2, 256, 257, 32,767, 32,768 and 65,535 from 65,534; the samples of the
last zone; an estimate that a record takes, and one kept out by each condition of R76; DISTURBED or not. -/
theorem witness_ScansAdvanceTimeByTheirNumber :
    let xs := List.replicate 8 (⟨200, .ok⟩ : Sample)
    let h := decideEstimate window 0 Channel.reset (some chan) (seen 2275000 91)
    idle.part ≠ .starting ∧ (Inbound.scan 0 (List.replicate 8 ⟨200, .ok⟩)).valid idle.cal.geometry = true
      ∧ ({ idle with rx := { idle.rx with synced := false } }).rx.synced = false ∧ idle.rx.synced = true
      ∧ (∀ x ∈ [(65534, 0), (65535, 1), (0, 2), (254, 256), (255, 257), (32765, 32767), (32766, 32768), (65533, 65535)],
          BitVec.ofNat 16 x.1 = idle.rx.lastScan + BitVec.ofNat 16 x.2)
      ∧ (idle.cal.geometry = some geo ∧ geo.zones.length ≤ 4 ∧ xs.length = 2 * geo.zones.length ∧ xs[2 * 3]? = some ⟨200, .ok⟩ ∧ xs[2 * 3 + 1]? = some ⟨200, .ok⟩)
      ∧ (running.train.state = .running ∧ ctx.disturbed = false ∧ ({ ctx with disturbed := true }).disturbed = true)
      ∧ ((axle 1).ordinal ≤ 1 ∧ h.generation = (axle 1).generation ∧ (axle 1).finalized = false ∧ (axle 1).estimates[h.channel] = none)
      ∧ 0 < (axle 1).ordinal ∧ h.generation ≠ ({ axle 1 with generation := 2 }).generation ∧ ({ axle 1 with finalized := true }).finalized = true
      ∧ weighed.estimates[h.channel] ≠ none := by decide +kernel

/-- LossOfSyncEmptiesTheWindows: the timer running and stopped; a train that runs, one that stands, one that ends; the last
channel in use, the first one not in use, no Geometry Record, and a channel without a record. -/
theorem witness_LossOfSyncEmptiesTheWindows :
    idle.rx.silence = true ∧ State.reset.rx.silence = false ∧ running.train.state = .running ∧ (train .standing).train.state = .standing
      ∧ running.train.ctx = some ctx ∧ (train .ending).train.state ≠ .running ∧ (train .ending).train.state ≠ .standing
      ∧ (idle.cal.geometry = some geo ∧ (3 : Fin 4).val < geo.zones.length ∧ tables.channels[channelOf 3 .south] ≠ none)
      ∧ geoMin.zones.length ≤ (1 : Fin 4).val ∧ Calibration.reset.geometry = none ∧ (channels.set 7 none)[channelOf 3 .south] = none := by decide +kernel

/-- WheelAndRequestFramesAreRouted: unsynced; back of 0 and 64 within the synchronization, 64 just before it, 65, 65,531,
65,532 and 65,535; a buffer of three requests and of four. -/
theorem witness_WheelAndRequestFramesAreRouted :
    let s (n : Scan) : State := { idle with rx := { idle.rx with syncScan := 200000 - n } }
    idle.part ≠ .starting ∧ ({ idle with rx := { idle.rx with synced := false } }).rx.synced = false ∧ idle.rx.synced = true
      ∧ (∀ back ∈ [0, 64, 65, 65531, 65532, 65535], back < 65536 ∧ idle.rx.lastScan - BitVec.ofNat 16 back = BitVec.ofNat 16 (65534 + 65536 - back))
      ∧ 64 ≤ ((s 64).rx.time - (s 64).rx.syncScan).toNat ∧ ((s 63).rx.time - (s 63).rx.syncScan).toNat < 64
      ∧ (req 0x12 (List.replicate 32 0)).payload.length ≤ 32
      ∧ ({ idle with requests := List.replicate 3 (req 1 []) }).requests.length < 4
      ∧ 4 ≤ ({ idle with requests := List.replicate 4 (req 1 []) }).requests.length := by decide +kernel

/-- PairUnitsJoinEventsIntoPassages: no pending event; rock counts 6 and 7; the other detector; transits of 0, the largest
positive and the most negative difference. -/
theorem witness_PairUnitsJoinEventsIntoPassages :
    let s (n : Nat) : State := { idle with west := { pending := some (.w1, 154005), rockCount := n } }
    (idle.pairUnit (Detector.w1).pair).pending = none ∧ ((s 6).pairUnit (Detector.w1).pair).pending = some (.w1, 154005)
      ∧ ((s 6).pairUnit (Detector.w1).pair).rockCount < 7 ∧ ((s 7).pairUnit (Detector.w1).pair).rockCount = 7
      ∧ (Detector.w1 ≠ .w2 ∧ ((s 0).pairUnit (Detector.w2).pair).pending = some (.w1, 154005))
      ∧ (5 : T16).toNat % 4294967296 = ((5 : T16).toNat + 0) % 4294967296
      ∧ (2147483647 : T16).toNat % 4294967296 = ((0 : T16).toNat + 2147483647) % 4294967296
      ∧ (2147483648 : T16).toNat % 4294967296 = ((0 : T16).toNat + 2147483648) % 4294967296 ∧ idle.cal.geometry = some geo := by decide +kernel

/-- PaceTrackerTakesAnEntry: an empty history; deviations of 0, 1, 2, 4 and 5; three paces before; runs of 3, 4 and 15. -/
theorem witness_PaceTrackerTakesAnEntry :
    (∀ x ∈ [(6400, 0), (6500, 1), (6600, 2), (6899, 4), (6900, 5), (5900, 5)], (max x.1 6400 - min x.1 6400) * 64 / 6400 = x.2)
      ∧ ([6400] : List Nat) = [] ++ [6400] ∧ ([7, 6400, 6420, 6409] : List Nat) = [7] ++ [6400, 6420, 6409] ∧ ([1, 2] : List Nat).length < 3
      ∧ (({ PaceTracker.reset with history := [6400, 6400, 6400, 6400], coarse := 3, fine := 3 } : PaceTracker).take 6400).lock = .fine
      ∧ (({ PaceTracker.reset with history := [6400], coarse := 15, fine := 2 } : PaceTracker).take 6400).lock = .coarse := by decide

/-- PassagesOutsideARunningTrain: both entry types on a READY and a NOT_READY part, another order, ENDING and IGNORING. -/
theorem witness_PassagesOutsideARunningTrain :
    idle.train.state = .idle ∧ idle.part = .ready ∧ ({ idle with part := .notReady }).part = .notReady
      ∧ ((passage .w1 .w2).first = .w1 ∧ (passage .w1 .w2).second = .w2) ∧ ((passage .e2 .e1).first = .e2 ∧ (passage .e2 .e1).second = .e1)
      ∧ (¬((passage .w2 .w1).first = .w1 ∧ (passage .w2 .w1).second = .w2) ∧ ¬((passage .w2 .w1).first = .e2 ∧ (passage .w2 .w1).second = .e1))
      ∧ ((train .ending).train.state = .ending ∧ (train .ending).train.ctx = some ctx)
      ∧ ({ idle with train := { idle.train with state := .ignoring } }).train.state = .ignoring := by decide +kernel

/-- EntriesExtendTheSection: the last ordinal and the last place that are free, both limits met, and a re-entry with its
record held. -/
theorem witness_EntriesExtendTheSection :
    let high (n : Nat) : State := { running with axles := { highest := n, firstOn := n, lastOn := n, lowestHeld := n, queue := [axle n] } }
    let back : State := { entered 2 with axles := { (entered 2).axles with lastOn := 1 } }
    running.train.state = .running ∧ (train .standing).train.state = .standing ∧ running.train.ctx = some ctx
      ∧ (passage .w1 .w2).sense = ctx.direction.forward ∧ (passage .w1 .w2).pair = ctx.direction.entryPair
      ∧ ((high 4094).AxlesSound ∧ (high 4094).axles.lastOn = (high 4094).axles.highest ∧ (high 4094).axles.highest < 4095
          ∧ (high 4094).axles.find 4094 = some (axle 4094) ∧ (axle 4094).epoch = ctx.epoch)
      ∧ ((entered 127).AxlesSound ∧ (entered 127).axles.queue.length < 128)
      ∧ ((high 4095).AxlesSound ∧ 4095 ≤ (high 4095).axles.highest)
      ∧ ((entered 128).AxlesSound ∧ 128 ≤ (entered 128).axles.queue.length)
      ∧ (back.AxlesSound ∧ back.axles.lastOn < back.axles.highest ∧ back.axles.find (back.axles.lastOn + 1) = some (axle 2)) := by decide +kernel

/-- EntriesExtendTheSection, prediction and re-entry: re-entries without a record, of the last generation, with and without the
record before; a zone in use and one that is not; lists of 47 and 48 windows; a covered span that has begun, and one that has
not. -/
theorem witness_EntriesExtendTheSection_predictions :
    let back : AxleTracker := { (entered 2).axles with lastOn := 1 }
    let gone : State := { running with axles := { back with firstOn := 2, lowestHeld := 3, queue := [] } }
    let last : State := { running with axles := { back with firstOn := 2, lowestHeld := 2, queue := [{ axle 2 with generation := 65535 }] } }
    back.find back.lastOn = some (axle 1)
      ∧ (gone.AxlesSound ∧ gone.axles.find (gone.axles.lastOn + 1) = none)
      ∧ (last.AxlesSound ∧ last.axles.find (last.axles.lastOn + 1) = some { axle 2 with generation := 65535 } ∧ last.axles.find last.axles.lastOn = none)
      ∧ (running.cal.geometry = some geo ∧ geo.zones[3]? = some ⟨6600, 7200⟩ ∧ ({ tables with geometry := some geoMin }).zoneCount ≤ 1)
      ∧ (List.replicate 47 window).length < 48 ∧ ¬(List.replicate 48 window).length < 48
      ∧ 0 ≤ ((10588 : Scan) - (window.inScan - BitVec.ofNat 32 12)).toInt ∧ ((10587 : Scan) - (window.inScan - BitVec.ofNat 32 12)).toInt < 0 := by decide +kernel

/-- ReversePassagesTakeAxlesBack: a backout of the one axle on the section, and of one behind a vehicle that ends at the ordinal
before it, FORMED or COMPLETE; returns with and without a record, with and without a vehicle; a rail that is cancelled, and
one that is decided already. -/
theorem witness_ReversePassagesTakeAxlesBack :
    let cleared : State := { entered 1 with axles := { (entered 1).axles with firstOn := 2 } }
    let gone : State := { cleared with axles := { cleared.axles with lowestHeld := 2, queue := [] } }
    let two (st : VehicleState) : State := { entered 2 with asm := { running.asm with list := [vehicle 1 st .unresolved], nextSeq := 2, firstFree := 2 } }
    let held (r : RailWindow) : State := { entered 1 with zones := running.zones.set 0 { ZoneUnit.reset with windows := [{ window with north := r }] } }
    running.train.ctx = some ctx ∧ (entered 1).train.state = .running ∧ (passage .w2 .w1).sense ≠ ctx.direction.forward
      ∧ ((two .formed).asm.list.getLast? = some (vehicle 1 .formed .unresolved) ∧ (vehicle 1 .formed .unresolved).isComplete = false
          ∧ (vehicle 1 .formed .unresolved).first + (vehicle 1 .formed .unresolved).count - 1 = (two .formed).axles.lastOn - 1)
      ∧ (vehicle 1 (.complete totals) .unresolved).isComplete = true ∧ running.asm.list.getLast? = none
      ∧ (some { axle 1 with vehicle := some 1 }).bind AxleRecord.vehicle = some 1 ∧ (some (axle 1)).bind AxleRecord.vehicle = none
      ∧ (held (seen 0 0)).CancelsRail (axle 1) 0 .north ∧ ¬(held { seen 0 0 with decided := some .gap }).CancelsRail (axle 1) 0 .north
      ∧ ((passage .w2 .w1).pair = ctx.direction.entryPair ∧ (entered 1).axles.firstOn ≤ (entered 1).axles.lastOn
          ∧ (entered 1).axles.find (entered 1).axles.lastOn = some (axle 1))
      ∧ ((passage .e2 .e1).sense ≠ ctx.direction.forward ∧ (passage .e2 .e1).pair ≠ ctx.direction.entryPair ∧ 1 < cleared.axles.firstOn
          ∧ cleared.axles.find (cleared.axles.firstOn - 1) = some (axle 1) ∧ gone.axles.find (gone.axles.firstOn - 1) = none) := by decide +kernel

/-- ExitsFinalizeTheFirstAxle: the one axle on the section, not finalized, finalized, and without a record; the last axle of a
FORMED vehicle, of a COMPLETE one, and of none; a detail queue of 31 and of 32; a speed at both ends of a band. -/
theorem witness_ExitsFinalizeTheFirstAxle :
    let done : State := { entered 1 with axles := { (entered 1).axles with queue := [{ axle 1 with finalized := true }] } }
    (entered 1).train.state = .running ∧ (passage .e1 .e2).sense = ctx.direction.forward ∧ (passage .e1 .e2).pair ≠ ctx.direction.entryPair
      ∧ (entered 1).axles.firstOn = (entered 1).axles.lastOn ∧ (entered 1).axles.find 1 = some (axle 1) ∧ (axle 1).finalized = false
      ∧ done.axles.find 1 = some { axle 1 with finalized := true }
      ∧ ({ (entered 1).axles with queue := [] } : AxleTracker).find 1 = none
      ∧ ((assembled [vehicle 1 .formed .unresolved]).asm.list = [] ++ vehicle 1 .formed .unresolved :: [] ∧ (vehicle 1 .formed .unresolved).isComplete = false
          ∧ (vehicle 1 .formed .unresolved).first + (vehicle 1 .formed .unresolved).count - 1 = 1)
      ∧ (∀ v ∈ [vehicle 1 (.complete totals) .absent, vehicle 2 .formed .unresolved], v.isComplete = true ∨ v.first + v.count - 1 ≠ 1)
      ∧ (let d := axleDetailOf 31 [] (axle 1); (List.replicate 31 d).length < 32 ∧ 32 ≤ (List.replicate 32 d).length)
      ∧ ({ Settings.reset with axleDetail := true }).axleDetail = true ∧ 720 ≤ (axle 1).speed ∧ (axle 1).speed ≤ 720 := by decide +kernel

/-- UnexpectedPassagesAreCounted: an exit, a backout and a return with nothing to take. -/
theorem witness_UnexpectedPassagesAreCounted :
    running.train.state = .running ∧ running.train.ctx = some ctx ∧ running.axles.lastOn < running.axles.firstOn
      ∧ ((passage .e1 .e2).sense = ctx.direction.forward ∧ (passage .e1 .e2).pair ≠ ctx.direction.entryPair)
      ∧ ((passage .w2 .w1).sense ≠ ctx.direction.forward ∧ (passage .w2 .w1).pair = ctx.direction.entryPair)
      ∧ ((passage .e2 .e1).sense ≠ ctx.direction.forward ∧ (passage .e2 .e1).pair ≠ ctx.direction.entryPair ∧ running.axles.firstOn ≤ 1) := by decide +kernel

/-- QuietTimerExpiries: stopped, one scan early, just due; running, standing and ignoring. -/
theorem witness_QuietTimerExpiries :
    let standing : State := { entered 1 with train := { (entered 1).train with state := .standing } }
    idle.train.quiet = none ∧ running.train.quiet = some 200000 ∧ ((199999 : Scan) - 200000).toInt < 0
      ∧ 0 ≤ (running.rx.time - 200000).toInt
      ∧ ((entered 1).train.state = .running ∧ (entered 1).train.ctx = some { ctx with entries := 1 } ∧ (entered 1).axles.firstOn ≤ (entered 1).axles.lastOn)
      ∧ (standing.train.state = .standing ∧ standing.axles.firstOn ≤ standing.axles.lastOn)
      ∧ (train .ignoring).train.state = .ignoring ∧ (train .ignoring).train.quiet = some 200000 := by decide +kernel

/-- QuietExpiryEndsTheTrain: an empty section, a backed-out axle still held; and one that has cleared, with no vehicle and behind
a vehicle that waits. -/
theorem witness_QuietExpiryEndsTheTrain :
    let s : State := { running with axles := { highest := 1, firstOn := 1, lastOn := 0, lowestHeld := 1, queue := [axle 1] } }
    let one : State := { running with axles := { highest := 1, firstOn := 2, lastOn := 1, lowestHeld := 1, queue := [axle 1] } }
    let u := assembled [vehicle 1 (.complete totals) (.waiting 200001)]
    (s.quietDue = true ∧ s.train.state = .running ∧ s.train.ctx = some ctx ∧ s.axles.lastOn < s.axles.firstOn) ∧ s.VehiclesOrdered
      ∧ (one.quietDue = true ∧ one.axles.lastOn < one.axles.firstOn ∧ one.VehiclesOrdered)
      ∧ (u.quietDue = true ∧ u.axles.lastOn < u.axles.firstOn ∧ u.VehiclesOrdered) := by decide +kernel

/-- AbortsKeepCompleteVehiclesOnly: executed while running, while idle, with a payload; an abort reason and a context; with a
COMPLETE vehicle before a FORMED one, and with none. -/
theorem witness_AbortsKeepCompleteVehiclesOnly :
    let s := asked codeAbortTrain [] running
    s.CanExecute (req codeAbortTrain []) [] ∧ (req codeAbortTrain []).code = codeAbortTrain ∧ (req codeAbortTrain [0]).payload ≠ []
      ∧ s.train.state = .running ∧ (asked codeAbortTrain [] idle).CanExecute (req codeAbortTrain []) []
      ∧ idle.train.state ≠ .running ∧ EndReason.request ≠ .quiet ∧ running.train.ctx = some ctx
      ∧ ((assembled [vehicle 1 (.complete totals) .absent, vehicle 2 .formed .unresolved]).asm.list.filter Vehicle.isComplete).getLast?
        = some (vehicle 1 (.complete totals) .absent)
      ∧ (assembled [vehicle 1 .formed .unresolved]).asm.list.filter Vehicle.isComplete = [] := by decide +kernel

/-- BaselinesFollowTheirBlocks: each reason not to qualify; 62 and 63 scans; a mean at zero_range and one eighth beyond. -/
theorem witness_BaselinesFollowTheirBlocks :
    ({ Channel.reset with presence := .occupied } : Channel).presence = .occupied ∧ (⟨0, .opened⟩ : Sample).status ≠ .ok
      ∧ (Channel.reset.presence = .empty ∧ (⟨0, .ok⟩ : Sample).status = .ok ∧ 62 < 63)
      ∧ ((5600 : Int) = (44600 + 196 + 4) / 8 ∧ ((5600 : Int) - 8 * chan.zeroCal).natAbs ≤ 8 * chan.zeroRange)
      ∧ (5601 : Int) = (44608 + 196 + 4) / 8 ∧ 8 * chan.zeroRange < ((5601 : Int) - 8 * chan.zeroCal).natAbs := by decide

/-- PresenceNeedsAFullRun: samples at the thresholds and just beyond them; runs of one short and of the full length. -/
theorem witness_PresenceNeedsAFullRun :
    let c : Channel := { Channel.reset with baseline := 1600 }
    let d : Channel := { c with presence := .occupied }
    (⟨0, .overrange⟩ : Sample).status ≠ .ok
      ∧ (c.presence = .empty ∧ c.run = none ∧ 8 * (2200 : Int) - c.baseline ≤ 8 * (chan.threshold : Int) ∧ 8 * (chan.threshold : Int) < 8 * (2201 : Int) - c.baseline)
      ∧ (d.presence = .occupied ∧ d.run = none ∧ 8 * ((chan.threshold / 2 : Nat) : Int) ≤ 8 * (1200 : Int) - d.baseline
          ∧ 8 * (1199 : Int) - d.baseline < 8 * ((chan.threshold / 2 : Nat) : Int))
      ∧ (1 ≤ (List.replicate 3 (⟨2201, .ok⟩ : Sample)).length ∧ (List.replicate 3 (⟨2201, .ok⟩ : Sample)).length < 4)
      ∧ ((List.replicate 4 (⟨2201, .ok⟩ : Sample)).length = 4 ∧ (List.replicate 4 (⟨2201, .ok⟩ : Sample)).getLast? = some ⟨2201, .ok⟩)
      ∧ (∀ a ∈ List.replicate 4 (⟨2201, .ok⟩ : Sample), a.status = .ok ∧ 8 * (chan.threshold : Int) < 8 * a.value - c.baseline)
      ∧ (∀ a ∈ List.replicate 4 (⟨1199, .ok⟩ : Sample), a.status = .ok ∧ 8 * a.value - d.baseline < 8 * ((chan.threshold / 2 : Nat) : Int)) := by decide +kernel

/-- WindowsAreThoseOfTheTable: the worked pace and the largest one, trims up to 3; and each condition of R91 at its edge. -/
theorem witness_WindowsAreThoseOfTheTable :
    let z : ZoneSpan := ⟨3000, 3600⟩
    let tOut (p : Nat) := 160000 + (2 * (3600 * p) + 2000) / 4000
    let w := window
    z.a ≤ z.b ∧ z.b ≤ geo.cE ∧ 0 ≤ 3 ∧ 3 ≤ 3 ∧ tOut 6400 = 171520 ∧ tOut 16777215 + 16 < 68719476736
      ∧ tOut 16777215 - (160000 + (2 * (3000 * 16777215) + 2000) / 4000) < 2147483648
      ∧ (0 ≤ ((10615 : Scan) - w.start).toInt ∧ ((10614 : Scan) - w.start).toInt < 0)
      ∧ ((w.stop - w.start).toInt + 1 < ((92 : Nat) : Int) ∧ ((91 : Nat) : Int) ≤ (w.stop - w.start).toInt + 1)
      ∧ (48 ≤ (List.replicate 48 w).length ∧ (List.replicate 47 w).length < 48) ∧ ([w, w] : List Window) = [w] ++ [w]
      ∧ 0 ≤ (({ w with outScan := 10603 } : Window).outScan + BitVec.ofNat 32 12 - w.start).toInt
      ∧ (({ w with outScan := 10602 } : Window).outScan + BitVec.ofNat 32 12 - w.start).toInt < 0 := by decide +kernel

/-- WheelMassDecidesTheRail: one sample; masses of −1, 0, 65,535 and 65,536 kg at a gain of 8 kg a count; each mark. Of a scan: a
window just before and at its s, at its e and just past it, at its deadline and past it; missing scans that end or begin at
its edges and just outside them; events at the edges of its bands and outside them; a channel with no record. -/
theorem witness_WheelMassDecidesTheRail :
    let mass (m8 : Int) : Int := (m8 * ((524288 : Nat) : Int)).sign * ((2 * (m8 * ((524288 : Nat) : Int)).natAbs + 524288) / 1048576 : Nat)
    (seen 2275000 1).closeBase = some 1600 ∧ 1 ≤ (seen 2275000 1).count ∧ (mass (-1) < 0 ∧ mass 0 = 0 ∧ mass 65535 = 65535 ∧ 65535 < mass 65536)
      ∧ (window.gap = false ∧ (seen 0 1).fault = false ∧ (seen 0 1).onSeen = true ∧ (seen 0 1).offSeen = true)
      ∧ ({ window with gap := true }).gap = true ∧ ({ seen 0 1 with fault := true }).fault = true
      ∧ ({ seen 0 1 with onSeen := false }).onSeen = false ∧ ({ seen 0 1 with offSeen := false }).offSeen = false
      ∧ (((10614 : Scan) - window.start).toInt < 0 ∧ 0 ≤ ((10615 : Scan) - window.start).toInt)
      ∧ (0 ≤ (window.stop - (10705 : Scan)).toInt ∧ 0 < ((10706 : Scan) - window.stop).toInt)
      ∧ (((10732 : Scan) - (window.outScan + BitVec.ofNat 32 12)).toInt ≤ 0 ∧ 0 < ((10733 : Scan) - (window.outScan + BitVec.ofNat 32 12)).toInt)
      ∧ (0 ≤ (window.stop - (10705 : Scan)).toInt ∧ ¬0 ≤ (window.stop - (10706 : Scan)).toInt)
      ∧ (window.inOnBand 12 10588 = true ∧ window.inOnBand 12 10587 = false ∧ window.inOffBand 12 10732 = true ∧ window.inOffBand 12 10733 = false)
      ∧ (({ Channel.reset with baseline := 1600, run := some (3, 10588) } : Channel).detect 4 4 chan 10591 ⟨2201, .ok⟩).2 = some (.on 10588)
      ∧ (({ Channel.reset with baseline := 1600, presence := .occupied, run := some (3, 10732) } : Channel).detect 4 4 chan 10735 ⟨1199, .ok⟩).2 = some (.off 10732)
      ∧ (Calibration.reset.zoneTables 0).record .north = none ∧ (tables.zoneTables 3).record .south = some chan
      ∧ ({ window with state := .pending }).state = .pending ∧ window.state = .awaitingOff ∧ (seen 0 1).decided = none := by decide +kernel

/-- SpeedFactorStaysBetweenPoints: at v_1 and v_8, and at both ends of a segment. -/
theorem witness_SpeedFactorStaysBetweenPoints :
    curveFault curve = none ∧ 50 ≤ curve[0].v ∧ curve[7].v ≤ 1300 ∧ (curve[4].v < 701 ∧ 701 ≤ curve[5].v) ∧ (curve[4].v < 900 ∧ 900 ≤ curve[5].v) := by decide

/-- LoadsAreCombinedFromTheEstimates: min_zones 1, and the masses, means and corrections of a record. -/
theorem witness_LoadsAreCombinedFromTheEstimates :
    1 ≤ ({ Limits.default with minZones := 1 }).minZones ∧ weighed.railMasses [0, 1, 2, 3] .north = [12400, 12600, 12300, 12500]
      ∧ (2 * ([12400, 12600, 12300, 12500] : List Nat).sum + 4) / (2 * 4) = 12450 ∧ (2 * (12450 * speedFactor (some curve) 720) + 32768) / 65536 = 12705
      ∧ (axle 1).railMasses [0, 1, 2, 3] .north = [] := by decide

/-- VehicleTotalsAddUp: one axle weighed, and eight of which one is not. -/
theorem witness_VehicleTotalsAddUp :
    let sound (a : AxleRecord) := a.axleLoad = (a.north.bind fun n => a.south.map fun m => n + m) ∧ a.flags.toNat < 4096
    ([loaded 1 12705 12399 720 4095].length = (vehicle 1 .formed .unresolved).count ∧ 1 ≤ (vehicle 1 .formed .unresolved).count)
      ∧ (∀ a ∈ [loaded 1 12705 12399 720 4095], sound a) ∧ (∀ a ∈ [loaded 1 12705 12399 720 4095], a.axleLoad ≠ none)
      ∧ (axle 2 :: List.replicate 7 (loaded 1 0 65535 0 0)).length = ({ vehicle 1 .formed .unresolved with count := 8 }).count
      ∧ (∀ a ∈ axle 2 :: List.replicate 7 (loaded 1 0 65535 0 0), sound a)
      ∧ ∃ a ∈ axle 2 :: List.replicate 7 (loaded 1 0 65535 0 0), a.axleLoad = none := by
  refine ⟨by decide, by decide, by decide, by decide, by decide, axle 2, by simp, rfl⟩

/-- The train of section 9.7 when ordinal 5 has entered, with its types 21 and 40. -/
def sorted (l : List (Option Nat)) : State :=
  { running with axles := spaced 1 l, asm := { running.asm with types := (running.asm.types.set 0 (some type40)).set 1 (some type21) } }

/-- VehiclesFollowTheTypeTable: an entry that has failed before one that matches, or that is undecided; every entry failed;
splits at the first, at the seventh and at the eighth look, at last_on and at an unknown spacing; a vehicle formed. -/
theorem witness_VehiclesFollowTheTypeTable :
    let s := sorted [none, some 1794, some 7610, some 1805, some 3050]
    let t := sorted [none, some 1794, some 7610, some 1805]
    let flush : State := { t with train := { t.train with state := .ending, ctx := some { ctx with endReason := some .quiet } } }
    let long := spaced 1 (none :: List.replicate 8 (some 2199))
    s.train.state = .running ∧ s.asm.firstFree ≤ s.axles.lastOn ∧ s.asm.list.length < 16
      ∧ s.asm.types.toList = [some type40] ++ some type21 :: List.replicate 30 none
      ∧ s.axles.judge false s.asm.firstFree type40 = .fails ∧ s.axles.judge false 1 type21 = .fits false
      ∧ s.axles.Fails s.asm.firstFree type40 ∧ s.asm.firstFree + type21.axles ≤ s.axles.lastOn ∧ t.axles.lastOn < t.asm.firstFree + type21.axles
      ∧ t.axles.judge false 1 type21 = .undecided
      ∧ (flush.train.state = .ending ∧ flush.train.ctx.bind TrainContext.endReason = some .quiet ∧ flush.axles.judge true 1 type21 = .fits false
          ∧ t.axles.lastOn < t.asm.firstFree + type40.axles - 1)
      ∧ (running.asm.types.toList = List.replicate 32 none)
      ∧ long.RunsOn 2200 1 1 ∧ long.RunsOn 2200 1 8 ∧ 1 + 8 ≤ long.lastOn
      ∧ (spaced 1 [none, some 2200]).spacingAt (1 + 1) = some 2200 ∧ (spaced 1 [none, none]).spacingAt (1 + 1) = none
      ∧ (spaced 1 [none]).lastOn < 1 + 1
      ∧ (s.formable.map fun v => (v.sequence, v.first, v.count)) = some (1, 1, 4) ∧ t.formable = none
      ∧ idle.train.state = .idle ∧ 16 ≤ (List.replicate 16 (vehicle 1 .formed .unresolved)).length := by
  refine ⟨rfl, by decide +kernel, by decide +kernel, by decide +kernel, by decide +kernel, by decide +kernel,
    .inl ⟨0, 2000, 1794, rfl, ⟨by decide, by decide⟩, .inl (by decide)⟩, by decide, by decide, by decide +kernel, by decide +kernel, by decide +kernel,
    fun j h k => absurd k (by omega), fun j h k => ⟨2199, ⟨?_, ?_⟩, by decide⟩, by decide, by decide, by decide, by decide, by decide +kernel, by decide +kernel,
    rfl, by decide⟩
  · have : (spaced 1 (none :: List.replicate 8 (some 2199))).lastOn = 9 := by decide
    omega
  · have : ∀ j : Fin 8, 1 ≤ j.val → (spaced 1 (none :: List.replicate 8 (some 2199))).spacingAt (1 + j.val) = some 2199 := by decide
    exact this ⟨j, k⟩ h

/-- IdentitiesAreAppendedOrTimeOut: each train state, payloads of 2 and 16 bytes, entries at their bounds, each field failing
first, a list of 511 and of 512, each resolution, a position whose vehicle is not in the list, not formed and released; a
vehicle that completes with an entry and without one, in and before ENDING, id_wait 0 and not, three and four waiting; and a
wait just over and one scan short. -/
theorem witness_IdentitiesAreAppendedOrTimeOut :
    let e : ConsistEntry := { identity := List.replicate 12 126, typeCode := some 255, kind := some .loco }
    let r := req codeAppendConsist (consistBytes e)
    let s (l : List Vehicle) := asked codeAppendConsist (consistBytes e) (assembled l)
    let fields (b n k : Byte) (id : List Byte) : List (Prop × Nat) :=
      [(id ≠ [] ∧ ∀ x ∈ id, 32 ≤ x.toNat ∧ x.toNat ≤ 126, 1), (b.getLsbD 0 = true → n ≠ 0, 2), (b.getLsbD 1 = true → 1 ≤ k.toNat ∧ k.toNat ≤ 3, 3)]
    let waits (n : Nat) : State := assembled ((List.range n).map (fun i => vehicle (i + 1) (.complete totals) (.waiting 200001)) ++ [vehicle (n + 1) .formed .unresolved])
    let consisted : State := { assembled [vehicle 1 .formed .unresolved] with consist := [e] }
    (s []).CanExecute r [] ∧ r.code = codeAppendConsist ∧ (train .ending).train.state = .ending ∧ (s []).train.state ≠ .ending
      ∧ ([0, 0] : List Byte).length < 3 ∧ 15 < (List.replicate 16 (0 : Byte)).length
      ∧ (1 ≤ e.identity.length ∧ e.identity.length ≤ 12 ∧ (∀ c ∈ e.identity, 32 ≤ c.toNat ∧ c.toNat ≤ 126) ∧ e.typeCode = some 255)
      ∧ ({ running with consist := List.replicate 511 e }).consist.length < 512 ∧ 512 ≤ ({ running with consist := List.replicate 512 e }).consist.length
      ∧ idle.train.state = .idle ∧ (train .ignoring).train.state = .ignoring ∧ (s []).train.state = .running ∧ (s []).train.ctx = some ctx
      ∧ (∀ x ∈ [Resolution.unresolved, .waiting 200000, .absent],
          (s [vehicle 1 (.complete totals) x]).asm.find ((s []).consist.length + 1) = some (vehicle 1 (.complete totals) x))
      ∧ ((s []).asm.find 1 = none ∧ ctx.vehiclesReleased.toNat < 1 ∧ 1 ≤ ({ ctx with vehiclesReleased := 1 }).vehiclesReleased.toNat)
      ∧ (FirstFails (fields 0 0 0 [31]) 1 ∧ FirstFails (fields 1 0 0 [126]) 2 ∧ FirstFails (fields 3 1 4 [32]) 3)
      ∧ (consisted.VehiclesOrdered ∧ consisted.asm.find 1 = some (vehicle 1 .formed .unresolved) ∧ entryAt consisted.consist 1 = some e)
      ∧ ((waits 0).VehiclesOrdered ∧ entryAt (waits 0).consist 1 = none ∧ (waits 0).settings.idWait ≠ 0 ∧ ({ (waits 0).settings with idWait := 0 }).idWait = 0)
      ∧ ((waits 3).VehiclesOrdered ∧ (waits 3).asm.find 4 = some (vehicle 4 .formed .unresolved) ∧ ((waits 3).asm.list.filter Vehicle.isWaiting).length < 4)
      ∧ ((waits 4).VehiclesOrdered ∧ (waits 4).asm.find 5 = some (vehicle 5 .formed .unresolved) ∧ 4 ≤ ((waits 4).asm.list.filter Vehicle.isWaiting).length
          ∧ (waits 4).asm.list = [] ++ vehicle 1 (.complete totals) (.waiting 200001) :: (waits 4).asm.list.tail)
      ∧ 0 ≤ ((200000 : Scan) - 200000).toInt ∧ ((199999 : Scan) - 200000).toInt < 0 := by
  refine ⟨by decide +kernel, rfl, rfl, by decide, by decide, by decide, by decide +kernel, by decide +kernel, by decide +kernel, rfl, rfl, rfl, rfl, by decide +kernel,
    by decide +kernel, ⟨⟨[], _, _, rfl, by simp, by decide⟩, ⟨[_], _, _, rfl, by simp, by decide⟩, ⟨[_, _], _, _, rfl, by simp, by decide⟩⟩, by decide +kernel,
    by decide +kernel, by decide +kernel, by decide +kernel, by decide, by decide⟩

/-- ReleaseSendsTheHeadVehicle: a resolved head with 63 records queued, with 46 and 47; no vehicle, 64 records, a head that is FORMED, and
one that waits. -/
theorem witness_ReleaseSendsTheHeadVehicle :
    let s := assembled [vehicle 1 (.complete totals) .absent]
    s.asm.list = vehicle 1 (.complete totals) .absent :: [] ∧ (vehicle 1 (.complete totals) .absent).state = .complete totals
      ∧ (vehicle 1 (.complete totals) .absent).isResolved = true ∧ s.train.ctx = some ctx
      ∧ ({ s.link with records := List.replicate 63 summary }).records.length < 64 ∧ (List.replicate 47 summary).length = 47 ∧ 64 ≤ ({ s.link with records := List.replicate 64 summary }).records.length
      ∧ running.asm.list = [] ∧ (vehicle 1 .formed .unresolved).isComplete = false ∧ (vehicle 1 (.complete totals) (.waiting 0)).isResolved = false := by decide +kernel

/-- SummaryEndsTheTrain: an ending train with no vehicle; both ends; 47 and 63 records queued, and 64. -/
theorem witness_SummaryEndsTheTrain :
    (train .ending).train.state = .ending ∧ (train .ending).asm.list = [] ∧ (train .ending).train.ctx = some ctx
      ∧ (({ ctx with endReason := some .request }).endReason ≠ none ∧ ({ ctx with endReason := some .request }).endReason ≠ some .quiet)
      ∧ ({ ctx with endReason := some .quiet }).passagesDuringEnding = false ∧ (List.replicate 63 summary).length < 64
      ∧ 64 ≤ (List.replicate 64 summary).length := by decide +kernel

/-- FrameEndsHandOnTheFreedPlace: the hold with and without a frame going out; a response, a record and nothing chosen,
with and without a request or a vehicle that waits for the place. -/
theorem witness_FrameEndsHandOnTheFreedPlace :
    let held : State := { idle with hold := true, link := { idle.link with sending := some outFrame } }
    let out (responses : List Response) (records : List QueueRecord) : State := { idle with link := { idle.link with sending := some outFrame, responses := responses, records := records } }
    (held.hold = true ∧ held.link.sending.isSome = true) ∧ (idle.hold = false ∧ idle.link.sending = none)
      ∧ ((out [] []).hold = false ∧ (out [] []).link.sending.isSome = true) ∧ (({ idle with hold := true }).hold = true ∧ ({ idle with hold := true }).link.sending = none)
      ∧ ((out [response] []).link.responses = response :: [] ∧ (out [response] []).requests = [] ∧ (asked codeReadStatus [] (out [response] [])).requests = req codeReadStatus [] :: [])
      ∧ ((out [] [summary]).link.responses = [] ∧ (out [] [summary]).notices.choose 5 7 = none ∧ (out [] [summary]).link.records = summary :: []
          ∧ (out [] [summary]).asm.list = [] ∧ (assembled [vehicle 1 (.complete totals) .absent]).asm.list ≠ [])
      ∧ ((raiseCause .channelFault 6 (out [] [summary])).notices.choose 5 7 ≠ none ∧ (out [] []).link.records = []) := by decide +kernel

/-- RequestRowsServeTheHeadRequest: an empty buffer, STARTING, no free place, another row; an unknown code, a payload where
none is taken; each train state. -/
theorem witness_RequestRowsServeTheHeadRequest :
    idle.requests = [] ∧ State.reset.part = .starting ∧ 4 ≤ (List.replicate 3 response).length + (some (1 : Byte)).isSome.toNat
      ∧ requestRow codeReadStatus true ≠ requestRow codeReadTable true
      ∧ ((asked 0x55 [] idle).CanExecute (req 0x55 []) [] ∧ (req 0x55 []).code ∉ knownCodes)
      ∧ ((asked codeClearConsist [0] idle).CanExecute (req codeClearConsist [0]) [] ∧ (req codeClearConsist [0]).payload ≠ [])
      ∧ ((asked codeClearConsist [] running).CanExecute (req codeClearConsist []) [] ∧ (req codeClearConsist []).payload = [])
      ∧ running.train.state = .running ∧ idle.train.state = .idle := by decide +kernel

/-- StatusAndTablesAreRead: a free place beside a reservation; payloads of the wrong length; each table at the ends of its range. -/
theorem witness_StatusAndTablesAreRead :
    let s : State := { asked codeReadStatus [] idle with link := { idle.link with responses := [response, response] }, cal := { tables with committing := some 1 } }
    s.CanExecute (req codeReadStatus []) [] ∧ (req codeReadStatus []).code = codeReadStatus ∧ (req codeReadTable [1, 0]).payload.length ≠ 3
      ∧ (asked codeReadTable [2, 0, 7] idle).CanExecute (req codeReadTable [2, 0, 7]) [] ∧ ([2, 0, 7] : List Byte) = natBytes 1 2 ++ natBytes 2 7
      ∧ ([7, 2, 0] : List Byte) = natBytes 1 7 ++ natBytes 2 512 ∧ ([6, 0, 31] : List Byte) = natBytes 1 6 ++ natBytes 2 31
      ∧ ([8, 0, 16] : List Byte) = natBytes 1 8 ++ natBytes 2 (NoticeKind.recordBacklog.index + 1) ∧ ([255, 255, 255] : List Byte) = natBytes 1 255 ++ natBytes 2 65535
      := by decide +kernel

/-- NoticesAreReadClearedAndLevelled: the three requests, kinds 0, 1, 16 and 17, levels 0, 7 and 8. -/
theorem witness_NoticesAreReadClearedAndLevelled :
    (asked codeReadNotices [] idle).CanExecute (req codeReadNotices []) [] ∧ (asked codeClearNotices [] idle).CanExecute (req codeClearNotices []) []
      ∧ (asked codeWriteLevel [16, 7] idle).CanExecute (req codeWriteLevel [16, 7]) [] ∧ (req codeWriteLevel [1]).payload.length ≠ 2
      ∧ ([0, 0] : List Byte) = natBytes 1 0 ++ natBytes 1 0 ∧ ([17, 7] : List Byte) = natBytes 1 17 ++ natBytes 1 7
      ∧ ([1, 8] : List Byte) = natBytes 1 1 ++ natBytes 1 8 ∧ ([16, 7] : List Byte) = natBytes 1 (NoticeKind.recordBacklog.index + 1) ++ natBytes 1 7
      ∧ ([1, 0] : List Byte) = natBytes 1 (NoticeKind.trainStarted.index + 1) ++ natBytes 1 0 := by decide +kernel

/-- The Type Table entry at the upper bounds of R127. -/
def typeMax : VehicleType :=
  { code := 255, kind := .other, tolerance := 500, gapMin := 10000, tare := some 200000, maxGross := some 1048560
    spacings := [20000, 500, 500, 500, 500, 500, 20000] }

/-- A WRITE TYPE payload field by field, and its fields with their ranges for index 31 of an empty table. -/
def typePayload (i code kind n tolerance gap present tare gross : Nat) (spacings : List Nat) : List Byte :=
  natBytes 1 i ++ natBytes 1 code ++ natBytes 1 kind ++ natBytes 1 n ++ natBytes 2 tolerance ++ natBytes 2 gap ++ natBytes 1 present ++ natBytes 4 tare ++
    natBytes 4 gross ++ spacings.flatMap (natBytes 2)

def typeFields (code kind n tolerance gap present tare gross : Nat) (spacings : List Nat) : List (Prop × Nat) :=
  [(1 ≤ code ∧ ∀ (j : Fin 32) (o : VehicleType), j ≠ 31 → idle.asm.types[j] = some o → o.code ≠ code, 1), (1 ≤ kind ∧ kind ≤ 3, 2), (2 ≤ n ∧ n ≤ 8, 3),
      (tolerance ≤ 500, 4), (1000 ≤ gap ∧ gap ≤ 10000, 5), (present.testBit 0 = true → tare ≤ 200000, 6), (present.testBit 1 = true → 1 ≤ gross ∧ gross ≤ 1048560, 7)] ++
    spacings.zipIdx.map fun d => (500 ≤ d.1 ∧ d.1 ≤ 20000, 8 + d.2)

/-- SettingsAndTypesAreWritten: settings at both bounds and one field beyond; indices 31 and 32; a type at its bounds, with
and without another entry of its code. Of a type: axle counts 0 and 1, a length that does not fit, and a first failing field
before, at the end of, and behind the seven fixed ones. -/
theorem witness_SettingsAndTypesAreWritten :
    let x : Settings := { quietTime := 65535, idWait := 65535, splitGap := 6000, axleDetail := true }
    let p := natBytes 1 31 ++ typeBytes typeMax
    (asked codeWriteSettings (settingsBytes x) running).CanExecute (req codeWriteSettings (settingsBytes x)) []
      ∧ (100 ≤ x.quietTime ∧ x.quietTime ≤ 65535 ∧ x.idWait ≤ 65535 ∧ 1000 ≤ x.splitGap ∧ x.splitGap ≤ 6000) ∧ (req codeWriteSettings []).payload.length ≠ 7
      ∧ ([0, 99, 0, 0, 3, 232, 0] : List Byte) = natBytes 2 99 ++ natBytes 2 0 ++ natBytes 2 1000 ++ natBytes 1 0
      ∧ ([0, 100, 0, 0, 3, 231, 0] : List Byte) = natBytes 2 100 ++ natBytes 2 0 ++ natBytes 2 999 ++ natBytes 1 0
      ∧ ([0, 100, 0, 0, 3, 232, 2] : List Byte) = natBytes 2 100 ++ natBytes 2 0 ++ natBytes 2 1000 ++ natBytes 1 2
      ∧ ((asked codeWriteType p running).CanExecute (req codeWriteType p) [] ∧ running.train.state = .running)
      ∧ ((asked codeWriteType p idle).CanExecute (req codeWriteType p) [] ∧ idle.train.state = .idle) ∧ ([32] : List Byte) = natBytes 1 32 ++ []
      ∧ ([31] : List Byte) = natBytes 1 31
      ∧ (1 ≤ typeMax.spacings.length ∧ typeMax.spacings.length ≤ 7 ∧ (∀ d ∈ typeMax.spacings, 500 ≤ d ∧ d ≤ 20000) ∧ typeMax.tare = some 200000)
      ∧ (∀ j : Fin 32, idle.asm.types[j] = none) ∧ (idle.asm.types.set 0 (some typeMax))[(0 : Fin 32)] = some typeMax
      ∧ (List.replicate 15 (0 : Byte)).length < 16 ∧ ([1, 244] : List Byte).length ≠ 2 * (1 - 1) ∧ ([1, 244] : List Byte) = [500].flatMap (natBytes 2) ∧ 2 = [500].length + 1
      ∧ typePayload 31 0 3 2 500 10000 3 200000 1048560 [500] = natBytes 1 (31 : Fin 32) ++ natBytes 1 0 ++ natBytes 1 3 ++ natBytes 1 2 ++ natBytes 2 500 ++
        natBytes 2 10000 ++ natBytes 1 3 ++ natBytes 4 200000 ++ natBytes 4 1048560 ++ [1, 244] := by decide +kernel

/-- SettingsAndTypesAreWritten, the fields of a type: the code 0, a maximum gross of 0, and a second spacing of 499. -/
theorem witness_SettingsAndTypesAreWritten_fields :
    FirstFails (typeFields 0 3 2 500 10000 3 200000 1048560 [500]) 1 ∧ FirstFails (typeFields 255 1 2 0 1000 3 0 0 [20000]) 7
      ∧ FirstFails (typeFields 1 3 3 500 10000 0 200001 0 [500, 499]) 9 := by
  refine ⟨⟨[], _, _, rfl, by simp, by simp⟩, ⟨[_, _, _, _, _, _], _, _, rfl, ?_, by decide⟩, ⟨[_, _, _, _, _, _, _, _], _, _, rfl, ?_, by decide⟩⟩
  · simp [show ∀ (j : Fin 32), idle.asm.types[j] = none from by decide +kernel]
  · simp [show ∀ (j : Fin 32), idle.asm.types[j] = none from by decide +kernel, show Nat.testBit 0 1 = false from rfl]

/-- CountersAreSelectedSampledAndZeroed: counters 3 and 4, a band of one speed and one that is turned round; an event, an invert
and an edge just beyond their ranges; samples at the threshold and below it, with both edges. -/
theorem witness_CountersAreSelectedSampledAndZeroed :
    let x : Selection := { event := .axlesInBand, threshold := 255, invert := true, edge := true, low := 65535, high := 65535 }
    let p := natBytes 1 3 ++ selectionBytes x
    let fields (event threshold invert edge low high : Nat) : List (Prop × Nat) :=
      [(event ≤ 11, 1), (threshold ≤ 255, 2), (invert ≤ 1, 3), (edge ≤ 1, 4), (low ≤ 65535, 5), (low ≤ high ∧ high ≤ 65535, 6)]
    (FirstFails (fields 12 0 0 0 0 0) 1 ∧ FirstFails (fields 11 255 2 2 0 0) 3 ∧ FirstFails (fields 11 255 1 2 0 0) 4 ∧ FirstFails (fields 0 0 1 1 1 0) 6)
      ∧ (asked codeWriteCounter p idle).CanExecute (req codeWriteCounter p) [] ∧ (x.threshold ≤ 255 ∧ x.high ≤ 65535 ∧ x.low ≤ x.high)
      ∧ ({ x with high := 0 }).high < ({ x with high := 0 }).low ∧ (req codeWriteCounter []).payload.length ≠ 9
      ∧ (asked codeReadCounters [] idle).CanExecute (req codeReadCounters []) [] ∧ (asked codeResetCounters [] idle).CanExecute (req codeResetCounters []) []
      ∧ (rises.selection.event = .recordQueueOccupancy ∧ (List.replicate 48 summary).length = 48 ∧ rises.selection.invert = false ∧ rises.selection.threshold ≤ 48)
      ∧ rises.previous = false ∧ ({ rises with previous := true }).selection.edge = true ∧ Counter.reset.selection.threshold = 0 := by
  refine ⟨⟨⟨[], _, _, rfl, by simp, by decide⟩, ⟨[_, _], _, _, rfl, by simp, by decide⟩, ⟨[_, _, _], _, _, rfl, by simp, by decide⟩,
    ⟨[_, _, _, _, _], _, _, rfl, by simp, by decide⟩⟩, by decide +kernel⟩

/-- RestartEmptiesTheBlocks: a commit in flight, a payload, and neither. -/
theorem witness_RestartEmptiesTheBlocks :
    let s := asked codeRestart [] running
    s.CanExecute (req codeRestart []) [] ∧ (req codeRestart []).code = codeRestart ∧ s.cal.committing = none ∧ (req codeRestart [0]).payload ≠ []
      ∧ ({ s with cal := { s.cal with committing := some 1 } }).CanExecute (req codeRestart []) [] := by decide +kernel

/-- ProtectionRefusesInItsOrder: each condition alone; a change of the level in and outside STARTING. -/
theorem witness_ProtectionRefusesInItsOrder :
    let s := asked codeWriteLimits [] idle
    s.CanExecute (req codeWriteLimits []) [] ∧ s.calEn = false ∧ ({ s with calEn := true }).calEn = true ∧ running.train.state = .running
      ∧ ({ tables with committing := some 1 }).committing ≠ none ∧ true ≠ idle.calEn ∧ idle.part ≠ .starting ∧ State.reset.part = .starting := by decide +kernel

/-- MetrologicalWritesReplaceTheirTable: each write with CAL_EN asserted, accepted and refused at its bounds; tables that make the
part READY, and each condition of R11 missing alone; zero_range and h at their bounds and one beyond. -/
theorem witness_MetrologicalWritesReplaceTheirTable :
    let s (c : Byte) (p : List Byte) : State := { asked c p idle with calEn := true }
    let fields (c : ChannelRecord) : List (Prop × Nat) := [(1 ≤ c.gain, 2), (c.zeroRange ≤ 1048575, 3), (1 ≤ c.threshold ∧ c.threshold ≤ 8388607, 4)]
    ((s codeWriteGeometry (geometryBytes geo)).CanExecute (req codeWriteGeometry (geometryBytes geo)) [] ∧ (s codeWriteGeometry []).calEn = true
        ∧ (s codeWriteGeometry []).train.state = .idle ∧ (s codeWriteGeometry []).cal.committing = none)
      ∧ (geometryFault 2 geo = none ∧ geometryFault 2 geoMin = some 1 ∧ geometryFault 2 { geo with cE := 7600 } = some 5)
      ∧ (geo.zones.length < 256 ∧ geo.fScan < 65536 ∧ geo.cE < 65536 ∧ ∀ z ∈ geo.zones, z.a < 65536 ∧ z.b < 65536)
      ∧ (∀ z : Nat, ([4] : List Byte).length ≠ 11 + 4 * z ∨ natAt [4] 0 1 ≠ z)
      ∧ (([8] : List Byte) = natBytes 1 8 ++ [] ∧ (7 :: channelBytes chan) = natBytes 1 (7 : Fin 8) ++ channelBytes chan ∧ (channelBytes chan).length = 13)
      ∧ (({ chan with gain := 0 }).gain = 0 ∧ ({ chan with threshold := 0 }).threshold = 0 ∧ 1 ≤ ({ chan with gain := 4294967295 }).gain ∧ -8388608 ≤ chan.zeroCal)
      ∧ ((curveBytes curve).length = 32 ∧ (∀ i : Fin 8, curve[i].v < 65536 ∧ curve[i].k < 65536) ∧ curveFault curve = none ∧ curveFault (curve.set 7 ⟨2001, 65535⟩) = some 15)
      ∧ ((limitsBytes Limits.default).length = 14 ∧ limitsFault 4 Limits.default = none ∧ limitsFault 4 { Limits.default with minZones := 5 } = some 3)
      ∧ (tables.ready = true ∧ ({ tables with geometry := none }).ready = false ∧ ({ tables with channels := channels.set 7 none }).ready = false
          ∧ ({ tables with curve := none }).ready = false ∧ ({ tables with origin := .default }).ready = false)
      ∧ (FirstFails (fields { chan with gain := 0 }) 2 ∧ FirstFails (fields { chan with zeroRange := 1048576 }) 3
          ∧ FirstFails (fields { chan with zeroRange := 1048575, threshold := 8388608 }) 4) := by
  refine ⟨by decide +kernel, by decide, by decide, ?_, by decide, by decide, by decide, by decide, by decide,
    ⟨⟨[], _, _, rfl, by simp, by decide⟩, ⟨[_], _, _, rfl, by simp; decide, by decide⟩, ⟨[_, _], _, _, rfl, by simp; decide, by decide⟩⟩⟩
  intro z
  left
  simp
  omega

/-- GeometryChecksOrderTheSection: a record, a curve and Limits that fail at their first, at a later and at their last check, and
ones that pass. -/
theorem witness_GeometryChecksOrderTheSection :
    (geometryFault 2 { geo with zones := [] } = some 1 ∧ geometryFault 2 { geo with dW := 1800 } = some 3 ∧ geometryFault 1 { geoMin with zones := [⟨499, 800⟩] } = some 7
        ∧ geometryFault 1 { geoMin with zones := [⟨500, 799⟩] } = some 8 ∧ geometryFault 2 { geo with cE := 7699 } = some 5 ∧ geometryFault 2 { geo with cE := 7700 } = none)
      ∧ (curveFault (curve.set 0 ⟨2001, 16384⟩) = some 1 ∧ curveFault (curve.set 1 ⟨50, 16384⟩) = some 3 ∧ curveFault (curve.set 7 ⟨2000, 16383⟩) = some 16 ∧ curveFault curve = none)
      ∧ (limitsFault 4 { Limits.default with trimEighths := 4 } = some 1 ∧ limitsFault 4 { Limits.default with endLimit := 256 } = some 12 ∧ limitsFault 2 Limits.default = none)
      ∧ tables.maxMinZones = 4 ∧ tables.geometry = some geo ∧ Calibration.reset.geometry = none := by decide

/-- CommitsWriteTheStore: a payload, NOT_READY, counters 65,534 and 65,535; a commit in flight and none. -/
theorem witness_CommitsWriteTheStore :
    let s : State := { asked codeCommitCalibration [] idle with calEn := true, cal := { tables with counter := 65534 } }
    s.CanExecute (req codeCommitCalibration []) [] ∧ s.calEn = true ∧ s.train.state = .idle ∧ s.cal.committing = none ∧ (req codeCommitCalibration [0]).payload ≠ []
      ∧ ({ s with part := .notReady }).part = .notReady ∧ s.part = .ready ∧ s.cal.geometry = some geo ∧ s.cal.curve = some curve ∧ s.cal.counter < 65535
      ∧ 65535 ≤ ({ s.cal with counter := 65535 }).counter ∧ ({ s.cal with committing := some 20 }).committing = some 20
      ∧ ({ word := some 42, image := .writing image } : Store).image = .writing image := by decide +kernel

/-- A train in progress, with an axle, a window, a vehicle, a waiting request and notices. -/
def busy : State :=
  raiseCause .scanGap 2
    { entered 1 with
      hold := true
      store := { word := some 0, image := .blank }
      zones := running.zones.set 0 { ZoneUnit.reset with windows := [window] }
      asm := { running.asm with list := [vehicle 1 .formed .unresolved], nextSeq := 2, firstFree := 2 }
      requests := [req codeReadStatus []]
      pending := [.quietTimerExpiry] }

/-- The state after a step. -/
def stepped (s : State) : State :=
  match step s with
  | .next t => t
  | .fault _ => s
  | .refused _ => s

/-- StepsKeepEveryCapacity, StepsKeepTheBoundsCounted, StepsKeepRecordsInOrder, StepsKeepTimersWithTheirStates,
StepsKeepTablesAndReadinessSound, StepsKeepCounterAndNoticesSound, StepsLeaveNothingUnsent: a train in progress meets every
invariant and steps on to a standstill; so does the part that is idle with nothing held. -/
theorem witness_StepsKeepEveryInvariant :
    State.Sound busy ∧ step busy = .next (stepped busy) ∧ (stepped busy).train.state = .standing
      ∧ idle.Conserving ∧ idle.hold = false ∧ idle.link.sending = none := by
  refine ⟨by decide +kernel, rfl, by decide +kernel, by decide +kernel, rfl, rfl⟩

/-- TablesChangeOnlyUnderProtection: a write of the Limits changes them. -/
theorem witness_TablesChangeOnlyUnderProtection :
    let s : State := { asked codeWriteLimits (limitsBytes { Limits.default with tol := 13 }) idle with calEn := true }
    exec .writeLimits s = .next (after .writeLimits s) ∧ s.part ≠ .starting ∧ Instr.writeLimits ≠ .powerOnReset
      ∧ (after .writeLimits s).cal.tables ≠ s.cal.tables := by
  refine ⟨rfl, by decide, by decide, by decide +kernel⟩

/-- TrainIdentityIsFixed: a train that ends, and one that starts. -/
theorem witness_TrainIdentityIsFixed :
    let s : State := { running with pending := [.quietTimerExpiry] }
    let w : Inbound := .wheel .w2 65534 0
    let i : State := { idle with west := { pending := some (.w1, 3195200), rockCount := 0 }, pending := [w.command] }
    s.TimersFollow ∧ step s = .next (stepped s) ∧ (stepped s).train.ctx.bind TrainContext.endReason = some .quiet
      ∧ i.TimersFollow ∧ i.train.ctx = none ∧ step i = .next (stepped i) ∧ (stepped i).train.ctx.map TrainContext.number = some 1 := by
  refine ⟨by decide +kernel, rfl, by decide +kernel, by decide +kernel, rfl, rfl, by decide +kernel⟩

/-- CountersNeverDecrease: an occurrence that takes a counter to its maximum; a RESET COUNTERS that waits at the head while another
command runs. -/
theorem witness_CountersNeverDecrease :
    let c : Counter := { Counter.reset with value := 4294967294, selection := { Selection.reset with event := .framesRejected } }
    let s : State := { idle with counters := #v[c, c, c, c] }
    let w (s : State) := asked codeResetCounters [] s
    exec .frameByteTimeout s = .next (after .frameByteTimeout s) ∧ Instr.frameByteTimeout ≠ .powerOnReset ∧ s.requests = []
      ∧ s.counters[0].value ≤ 4294967295 ∧ (after .frameByteTimeout s).counters[0].value = 4294967295
      ∧ exec .frameByteTimeout (w s) = .next (after .frameByteTimeout (w s)) ∧ (w s).requests = req codeResetCounters [] :: []
      ∧ (w s).requests.length ≤ (after .frameByteTimeout (w s)).requests.length := by
  refine ⟨rfl, by decide, rfl, by decide, by decide +kernel, rfl, rfl, by decide +kernel⟩

/-- TimeAdvancesOnlyAtScans: a scan that advances T, and a command that does not. -/
theorem witness_TimeAdvancesOnlyAtScans :
    let c := (Inbound.scan 65535 (List.replicate 8 ⟨200, .ok⟩)).command
    c ≠ .powerOnReset ∧ (after c idle).rx.time = 200001 ∧ (after .silenceTimeout idle).rx.time = 200000 := by decide +kernel

/-- NoFrameStartsUnderHold: a frame that ends under the hold with a response behind it. -/
theorem witness_NoFrameStartsUnderHold :
    let s : State := { idle with hold := true, link := { idle.link with sending := some outFrame, responses := [response] } }
    exec (.frameEnd true) s = .next (after (.frameEnd true) s) ∧ s.hold = true ∧ (after (.frameEnd true) s).hold = true
      ∧ (after (.frameEnd true) s).link.sending = none := by
  refine ⟨rfl, rfl, by decide +kernel, by decide +kernel⟩

end Sys2Proof.Machine.Tests
end

