-- ==== Sys2Proof/Proofs/Detectors.lean ====
section
/-! Passages (R34 to R37), the pair units (R31 to R34, R39) and the Pace Tracker (R41 to R46). -/

namespace Sys2Proof.Machine

/-! ## Times and passages -/

/-- The signed reading of R29 and R35, over the integers. -/
theorem t16Diff_eq_bmod (b a : T16) : t16Diff b a = ((b.toNat : Int) - a.toNat).bmod 4294967296 := by
  have ha := a.isLt
  have hb := b.isLt
  simp only [t16Diff, BitVec.toInt_eq_toNat_bmod, BitVec.toNat_setWidth, BitVec.toNat_sub, Int.bmod]
  omega

/-- A second event less than half a period after the first. -/
theorem transitTime_of_after {first second : T16} {d : Nat} (hd : d < 2147483648)
    (h : second.toNat % 4294967296 = (first.toNat + d) % 4294967296) : transitTime first second = max 1 d := by
  have diff : t16Diff second first = d := by
    rw [t16Diff_eq_bmod, Int.bmod]
    omega
  simp [transitTime, diff]

/-- A second event up to half a period before the first, or with it. -/
theorem transitTime_of_before {first second : T16} {d : Nat} (hd : d ≤ 2147483648)
    (h : first.toNat % 4294967296 = (second.toNat + d) % 4294967296) : transitTime first second = 1 := by
  have diff : t16Diff second first ≤ 0 := by
    rw [t16Diff_eq_bmod, Int.bmod]
    omega
  simp [transitTime, Int.toNat_of_nonpos diff]

theorem one_le_transitTime (first second : T16) : 1 ≤ transitTime first second := Nat.le_max_left _ _

theorem Detector.senseFrom_eq_eastward (y : Detector) : y.senseFrom = .eastward ↔ y = .w1 ∨ y = .e1 := by
  cases y <;> decide

theorem GeometryRecord.pairSpacing_eq_ite (g : GeometryRecord) (q : Pair) :
    g.pairSpacing q = if q = .west then g.dW else g.dE := by
  cases q <;> rfl

/-- R36 with the rounding written out. -/
theorem paceOf_eq (transit d : Nat) : paceOf transit d = max 1 (min 16777215 ((4000 * transit + d) / (2 * d))) := by
  simp only [paceOf, clamp, roundHalfUp, ← Nat.mul_assoc, Nat.reduceMul]

/-- R37 with the rounding written out. -/
theorem speedOf_eq (fScan pace : Nat) : speedOf fScan pace = min 65535 ((2304 * fScan + pace) / (2 * pace)) := by
  simp only [speedOf, clamp, roundHalfUp, ← Nat.mul_assoc, Nat.reduceMul, Nat.zero_max]

/-! ## Pair units -/

section
variable {x y : Detector} {t ty : T16} {u : PairUnit}

/-- R31. -/
theorem PairUnit.take_of_no_pending (h : u.pending = none) :
    u.take x t = { unit := { pending := some (x, t), rockCount := u.rockCount }, suspect := false, joined := none } := by
  simp [PairUnit.take, h]

/-- R32: a rock-back before the eighth. -/
theorem PairUnit.take_of_rockBack (h : u.pending = some (x, ty)) (hr : u.rockCount < 7) :
    u.take x t = { unit := { pending := none, rockCount := u.rockCount + 1 }, suspect := false, joined := none } := by
  have : u.rockCount ≠ 7 := by omega
  simp [PairUnit.take, h, this]

/-- R33: the eighth rock-back. -/
theorem PairUnit.take_of_eighth_rockBack (h : u.pending = some (x, ty)) (hr : u.rockCount = 7) :
    u.take x t = { unit := { pending := none, rockCount := 0 }, suspect := true, joined := none } := by
  simp [PairUnit.take, h, hr]

/-- R34. -/
theorem PairUnit.take_of_other_pending (hy : y ≠ x) (h : u.pending = some (y, ty)) :
    u.take x t = { unit := { pending := none, rockCount := 0 }, suspect := false, joined := some (y, ty) } := by
  simp [PairUnit.take, h, hy]

variable {s : State}

/-- An event that neither raises a notice nor completes a passage changes its pair unit alone. -/
theorem takeEvent_of_take_plain
    (h : (s.pairUnit x.pair).take x t = { unit := u, suspect := false, joined := none }) :
    takeEvent x t s = setPairUnit x.pair u s := by
  simp [takeEvent, h]

theorem takeEvent_of_take_suspect
    (h : (s.pairUnit x.pair).take x t = { unit := u, suspect := true, joined := none }) :
    takeEvent x t s = raiseCause .detectorSuspect x.code (setPairUnit x.pair u s) := by
  simp [takeEvent, h]

theorem takeEvent_of_take_joined
    (h : (s.pairUnit x.pair).take x t = { unit := u, suspect := false, joined := some (y, ty) }) :
    takeEvent x t s = takePassage (makePassage s.cal.geometry y ty x t) (setPairUnit x.pair u s) := by
  simp [takeEvent, h]

end

/-! ## Pace Tracker -/

theorem absDiff_eq_max_sub_min (a b : Nat) : absDiff a b = max a b - min a b := by
  unfold absDiff
  omega

/-- R42: within one sixty-fourth both runs grow. -/
theorem runsAfter_of_le_one {dev : Nat} (h : dev ≤ 1) (coarse fine : Nat) :
    runsAfter dev coarse fine = (min 15 (coarse + 1), min 15 (fine + 1)) := by
  simp [runsAfter, h]

/-- R42: from two to four the coarse run alone grows. -/
theorem runsAfter_of_two_to_four {dev : Nat} (low : 2 ≤ dev) (high : dev ≤ 4) (coarse fine : Nat) :
    runsAfter dev coarse fine = (min 15 (coarse + 1), 0) := by
  have : ¬dev ≤ 1 := by omega
  simp [runsAfter, this, high]

/-- R42: beyond four both runs end. -/
theorem runsAfter_of_five_le {dev : Nat} (h : 5 ≤ dev) (coarse fine : Nat) : runsAfter dev coarse fine = (0, 0) := by
  have : ¬dev ≤ 1 := by omega
  have : ¬dev ≤ 4 := by omega
  simp [runsAfter, *]

/-- R43. -/
theorem lockOf_eq_fine (fine coarse : Nat) : lockOf fine coarse = .fine ↔ 4 ≤ fine := by
  unfold lockOf
  split
  · simp [*]
  · split <;> simp [*]

/-- R43. -/
theorem lockOf_eq_coarse (fine coarse : Nat) : lockOf fine coarse = .coarse ↔ fine ≤ 3 ∧ 2 ≤ coarse := by
  unfold lockOf
  split
  · simp
    omega
  · split
    · simp
      omega
    · simp [*]

/-- R44: a history of four paces or more. -/
theorem runningPace_append_four (before : List Nat) (a b c d : Nat) :
    runningPace (before ++ [a, b, c, d]) = some ((a + b + c + d + 2) / 4) := by
  have sum : d + c + b + a = a + b + c + d := by omega
  simp [runningPace, sum]

/-- R44: a history of fewer than four paces. -/
theorem runningPace_of_length_lt {history : List Nat} (h : history.length < 4) : runningPace history = none := by
  unfold runningPace
  split
  next a b c d rest reversed =>
    have := congrArg List.length reversed
    simp at this
    omega
  · rfl

namespace PaceTracker
variable (t : PaceTracker) (p : Nat)

theorem take_history : (t.take p).history = (t.history ++ [p]).drop ((t.history ++ [p]).length - 5) := rfl

theorem take_lock : (t.take p).lock = lockOf (t.take p).fine (t.take p).coarse := rfl

theorem take_running : (t.take p).running = runningPace (t.take p).history := rfl

variable {t p}

/-- R42: the first pace after a reset has none to be compared with. -/
theorem take_runs_of_empty (h : t.history = []) : (t.take p).coarse = t.coarse ∧ (t.take p).fine = t.fine := by
  simp [take, h]

/-- R42. -/
theorem take_runs_of_last {before : List Nat} {prev : Nat} (h : t.history = before ++ [prev]) :
    ((t.take p).coarse, (t.take p).fine) = runsAfter (paceDeviation p prev) t.coarse t.fine := by
  simp [take, h]

/-- R41: the four newest paces are never dropped. -/
theorem take_history_of_three {before : List Nat} {a b c : Nat} (h : t.history = before ++ [a, b, c]) :
    (t.take p).history = before.drop (before.length - 1) ++ [a, b, c, p] := by
  have drop : before.length + 4 - 5 = before.length - 1 := by omega
  have kept : before.length - 1 - before.length = 0 := by omega
  simp [take_history, h, List.drop_append, drop, kept]

theorem take_history_length_le : (t.take p).history.length ≤ t.history.length + 1 := by
  simp [take_history]

end PaceTracker

end Sys2Proof.Machine

/-! ## The statements -/

open Sys2Proof Sys2Proof.Machine

/-- Settles O16: the event by the three cases of its pair unit, the passage field by field. -/
theorem pairUnitsJoinEventsIntoPassages : Obligations.PairUnitsJoinEventsIntoPassages := by
  unfold Obligations.PairUnitsJoinEventsIntoPassages
  refine ⟨fun s x t => ⟨fun idle => ?_, fun ty => ⟨fun same => ⟨fun few => ?_, fun eighth => ?_⟩,
    fun y other joins => ?_⟩⟩, ?_⟩
  · exact takeEvent_of_take_plain (PairUnit.take_of_no_pending idle)
  · exact takeEvent_of_take_plain (PairUnit.take_of_rockBack same few)
  · exact takeEvent_of_take_suspect (PairUnit.take_of_eighth_rockBack same eighth)
  · exact takeEvent_of_take_joined (PairUnit.take_of_other_pending other joins)
  · rintro geometry y x ty tx p rfl
    refine ⟨rfl, rfl, rfl, rfl, rfl, y.senseFrom_eq_eastward, one_le_transitTime ty tx, fun _ => transitTime_of_after,
      fun _ => transitTime_of_before, ?_, ?_⟩
    · rintro rfl
      exact ⟨rfl, rfl⟩
    · rintro g rfl
      exact ⟨_, _, _, rfl, rfl, g.pairSpacing_eq_ite x.pair, paceOf_eq _ _, speedOf_eq _ _⟩

/-- Settles O17: the history as `take` writes it, the runs by `runsAfter`, the lock state and the running pace from
what `take` leaves. -/
theorem paceTrackerTakesAnEntry : Obligations.PaceTrackerTakesAnEntry := by
  unfold Obligations.PaceTrackerTakesAnEntry
  refine ⟨fun t p => ⟨t.take_history p, PaceTracker.take_runs_of_empty,
    ?runs, ?fine, ?coarse, ?mean, ?few, ?running, ?own⟩,
    fun _ => rfl⟩
  case runs =>
    rintro before prev dev last rfl
    have runs := PaceTracker.take_runs_of_last (p := p) last
    rw [paceDeviation, absDiff_eq_max_sub_min] at runs
    exact ⟨fun low => Prod.mk.inj (runs.trans (runsAfter_of_le_one low _ _)),
      fun low high => Prod.mk.inj (runs.trans (runsAfter_of_two_to_four low high _ _)),
      fun high => Prod.mk.inj (runs.trans (runsAfter_of_five_le high _ _))⟩
  case fine =>
    rw [PaceTracker.take_lock]
    exact lockOf_eq_fine _ _
  case coarse =>
    rw [PaceTracker.take_lock]
    exact lockOf_eq_coarse _ _
  case mean =>
    intro before a b c three
    rw [PaceTracker.take_running, PaceTracker.take_history_of_three three]
    exact runningPace_append_four _ a b c p
  case few =>
    intro short
    have grown := PaceTracker.take_history_length_le (t := t) (p := p)
    rw [PaceTracker.take_running]
    exact runningPace_of_length_lt (by omega)
  case running =>
    intro locked q held
    simp [PaceTracker.report, locked, held]
  case own =>
    intro unlocked
    unfold PaceTracker.report
    split
    next locked _ => exact absurd locked unlocked
    · rfl
end

