-- ==== Sys2Proof/Proofs/Loads.lean ====
section
/-! The Speed Curve (R108, R116) and the Load Combiner (R105 to R112). -/

namespace Sys2Proof.Machine

/-! ## Tables that pass R116 -/

/-- What the checks of R116 leave of a curve's points: their speeds rise, from a bound on those before, and every factor is in
range. -/
theorem curve_of_checks {points : List CurvePoint} {i : Nat} {prev : Option Nat}
    (passed : ∀ c ∈ curveChecks i prev points, c.1 = true) :
    (prev.toList ++ points.map CurvePoint.v).IsChain (· < ·) ∧ ∀ p ∈ points, 16384 ≤ p.k ∧ p.k ≤ 65535 := by
  induction points generalizing i prev with
  | nil => cases prev <;> simp
  | cons p rest ih =>
    simp only [curveChecks, List.forall_mem_cons] at passed
    obtain ⟨-, rises, factor, later⟩ := passed
    obtain ⟨chain, factors⟩ := ih later
    refine ⟨?_, List.forall_mem_cons.2 ⟨by simpa [inRange] using factor, factors⟩⟩
    cases prev with
    | none => exact chain
    | some q => exact List.isChain_cons_cons.2 ⟨by simpa using rises, chain⟩

/-- R116: the speeds of a curve that passes rise from point to point. -/
theorem curve_speeds_rise {k : Vector CurvePoint 8} (passed : curveFault k = none) :
    k.toList.Pairwise (·.v < ·.v) :=
  List.pairwise_map.1 (curve_of_checks ((firstFailing_eq_none _).1 passed)).1.pairwise

/-- R116: every factor of a curve that passes is in range. -/
theorem curve_factors_in_range {k : Vector CurvePoint 8} (passed : curveFault k = none) :
    ∀ p ∈ k.toList, 16384 ≤ p.k ∧ p.k ≤ 65535 :=
  (curve_of_checks ((firstFailing_eq_none _).1 passed)).2

/-! ## Interpolation -/

/-- The rounded part x / w of a difference d lies between 0 and d. -/
theorem roundHalfUpInt_between {d x : Int} {w : Nat} (low : 0 < x) (high : x ≤ w) :
    min 0 d ≤ roundHalfUpInt (d * x) w ∧ roundHalfUpInt (d * x) w ≤ max 0 d := by
  have width : 0 < 2 * (w : Int) := by omega
  rw [roundHalfUpInt, Int.le_ediv_iff_mul_le width, ← Int.lt_add_one_iff (b := max 0 d), Int.ediv_lt_iff_lt_mul width]
  rcases le_total 0 d with up | down
  · rw [min_eq_left up, max_eq_right up]
    constructor <;> nlinarith
  · rw [min_eq_right down, max_eq_left down]
    constructor <;> nlinarith

/-- The whole of a difference needs no rounding. -/
theorem roundHalfUpInt_mul_self (d : Int) {w : Nat} (pos : 0 < w) : roundHalfUpInt (d * w) w = d := by
  have width : 2 * (w : Int) ≠ 0 := by omega
  rw [roundHalfUpInt, show 2 * (d * (w : Int)) + w = w + d * (2 * w) by ring, Int.add_mul_ediv_right _ _ width,
    Int.ediv_eq_zero_of_lt (by omega) (by omega), zero_add]

section
variable {v : Nat} {p q : CurvePoint} {before rest : List CurvePoint}

/-- R108, second row: on a segment the factor is the rounded interpolation, between the factors of its ends. -/
theorem interpolate_segment (left : p.v < v) (right : v ≤ q.v) :
    (interpolate v p (q :: rest) : Int) = p.k + roundHalfUpInt (((q.k : Int) - p.k) * ((v : Int) - p.v)) (q.v - p.v) ∧
      min p.k q.k ≤ interpolate v p (q :: rest) ∧ interpolate v p (q :: rest) ≤ max p.k q.k := by
  have between := roundHalfUpInt_between (d := (q.k : Int) - p.k) (x := (v : Int) - p.v) (w := q.v - p.v)
    (by omega) (by omega)
  simp only [interpolate, if_pos right]
  omega

/-- A segment gives at its upper end the factor there. -/
theorem interpolate_at_point (h : p.v < q.v) : interpolate q.v p (q :: rest) = q.k := by
  have segment := (interpolate_segment (rest := rest) h le_rfl).1
  rw [← Int.ofNat_sub h.le, roundHalfUpInt_mul_self _ (Nat.sub_pos_of_lt h)] at segment
  omega

/-- Points below v are passed over. -/
theorem interpolate_append (below : ∀ x ∈ before, x.v < v) (hp : p.v < v) (start : CurvePoint) :
    interpolate v start (before ++ p :: rest) = interpolate v p rest := by
  induction before generalizing start with
  | nil => simp [interpolate, Nat.not_le.2 hp]
  | cons b before ih =>
    obtain ⟨hb, below⟩ := List.forall_mem_cons.1 below
    simpa [interpolate, Nat.not_le.2 hb] using ih below b

/-- R108: an interpolated factor lies in every interval that holds the factors of the points. -/
theorem interpolate_mem_range {lo hi : Nat} (factors : ∀ x ∈ p :: rest, lo ≤ x.k ∧ x.k ≤ hi) (hp : p.v < v) :
    lo ≤ interpolate v p rest ∧ interpolate v p rest ≤ hi := by
  induction rest generalizing p with
  | nil => exact factors p (by simp)
  | cons q rest ih =>
    obtain ⟨kp, later⟩ := List.forall_mem_cons.1 factors
    rcases Nat.lt_or_ge q.v v with past | within
    · simpa [interpolate, Nat.not_le.2 past] using ih later past
    · have kq := later q (by simp)
      have between := (interpolate_segment (rest := rest) hp within).2
      omega

/-! ## The factor of a curve -/

variable {k : Vector CurvePoint 8}

/-- R108, first row. -/
theorem curveFactor_of_le_first (points : k.toList = p :: rest) (h : v ≤ p.v) : curveFactor k v = p.k := by
  simp [curveFactor, points, h]

theorem curveFactor_of_first_lt (points : k.toList = p :: rest) (h : p.v < v) :
    curveFactor k v = interpolate v p rest := by
  simp [curveFactor, points, Nat.not_le.2 h]

/-- Above a point of a rising curve the factor comes from that point and those after it. -/
theorem curveFactor_of_point_lt (rising : k.toList.Pairwise (·.v < ·.v)) (points : k.toList = before ++ p :: rest)
    (h : p.v < v) : curveFactor k v = interpolate v p rest := by
  obtain ⟨-, -, across⟩ := List.pairwise_append.1 (points ▸ rising)
  have below : ∀ x ∈ before, x.v < v := fun x hx => (across x hx p (by simp)).trans h
  cases before with
  | nil => exact curveFactor_of_first_lt points h
  | cons b before =>
    obtain ⟨hb, below⟩ := List.forall_mem_cons.1 below
    exact (curveFactor_of_first_lt points hb).trans (interpolate_append below h b)

end

/-- The points of a curve about the one of index i. -/
theorem curve_split_at (k : Vector CurvePoint 8) (i : Nat) (h : i < 8) :
    k.toList = k.toList.take i ++ k[i] :: k.toList.drop (i + 1) := by
  have drop := List.drop_eq_getElem_cons (l := k.toList) (i := i) (by simpa using h)
  rw [Vector.getElem_toList] at drop
  rw [← drop, List.take_append_drop]

/-- The points of a curve about the segment of index i. -/
theorem curve_split_at_segment (k : Vector CurvePoint 8) (i : Nat) (h : i + 1 < 8) :
    k.toList = k.toList.take i ++ k[i] :: k[i + 1] :: k.toList.drop (i + 2) := by
  have drop := List.drop_eq_getElem_cons (l := k.toList) (i := i + 1) (by simpa using h)
  rw [Vector.getElem_toList] at drop
  rw [← drop]
  exact curve_split_at k i (by omega)

theorem curve_eq_first_cons (k : Vector CurvePoint 8) : k.toList = k[0] :: k.toList.drop 1 :=
  curve_split_at k 0 (by omega)

section
variable {k : Vector CurvePoint 8} {v : Nat}

/-- R108 with the segment that holds v. -/
theorem curveFactor_of_segment (rising : k.toList.Pairwise (·.v < ·.v)) {i : Nat} (h : i + 1 < 8) (left : k[i].v < v) :
    curveFactor k v = interpolate v k[i] (k[i + 1] :: k.toList.drop (i + 2)) :=
  curveFactor_of_point_lt rising (curve_split_at_segment k i h) left

/-- R108, third row. -/
theorem curveFactor_of_last_le (rising : k.toList.Pairwise (·.v < ·.v)) (h : k[7].v ≤ v) : curveFactor k v = k[7].k := by
  rcases h.lt_or_eq with past | rfl
  · have none_after : k.toList.drop 8 = [] := by simp
    rw [curveFactor_of_point_lt rising (curve_split_at k 7 (by omega)) past, none_after, interpolate]
  · have last_rises : k[6].v < k[7].v := by
      simpa using List.pairwise_iff_getElem.1 rising 6 7 (by simp) (by simp) (by omega)
    rw [curveFactor_of_segment rising (by omega) last_rises, interpolate_at_point last_rises]

/-- R108: the factor lies in every interval that holds the factors of the points. -/
theorem curveFactor_mem_range {lo hi : Nat} (factors : ∀ x ∈ k.toList, lo ≤ x.k ∧ x.k ≤ hi) :
    lo ≤ curveFactor k v ∧ curveFactor k v ≤ hi := by
  have points := curve_eq_first_cons k
  rw [points] at factors
  rcases Nat.lt_or_ge k[0].v v with past | upTo
  · rw [curveFactor_of_first_lt points past]
    exact interpolate_mem_range factors past
  · rw [curveFactor_of_le_first points upTo]
    exact factors _ (by simp)

end

/-! ## Rail loads -/

theorem Rail.exists_iff {P : Rail → Prop} : (∃ r, P r) ↔ P .north ∨ P .south :=
  ⟨fun | ⟨.north, h⟩ => .inl h | ⟨.south, h⟩ => .inr h, fun | .inl h => ⟨_, h⟩ | .inr h => ⟨_, h⟩⟩

/-- R106: the masses that enter a rail's load. -/
theorem AxleRecord.mem_railMasses (a : AxleRecord) (zones : List (Fin 4)) (r : Rail) (m : Nat) :
    m ∈ a.railMasses zones r ↔
      ∃ z ∈ zones, a.estimates[channelOf z r] = some { condition := .valid, mass := some m } := by
  simp only [railMasses, List.mem_filterMap]
  refine exists_congr fun z => and_congr_right fun _ => ?_
  cases a.estimates[channelOf z r] with
  | none => simp
  | some e =>
    obtain ⟨condition, mass⟩ := e
    by_cases valid : condition = .valid <;> simp [valid]

section
variable {minZones : Nat} {ms : List Nat}

theorem railLoad_isNone : (railLoad minZones ms).isNone = true ↔ ms.length < minZones := by
  unfold railLoad
  split <;> simp [*]

theorem correctedLoad_eq (l k : Nat) : correctedLoad l k = (2 * (l * k) + 32768) / 65536 := rfl

/-- R107, R110. -/
theorem railCorrected_railLoad (k : Nat) :
    railCorrected k (railLoad minZones ms) =
      if ms.length < minZones then none else some (min 65535 (correctedLoad (meanLoad ms) k)) := by
  unfold railLoad
  split <;> rfl

/-- R110: the clamp is that of a load which is there. -/
theorem loadClamped_railLoad (k : Nat) :
    loadClamped k (railLoad minZones ms) = true ↔
      minZones ≤ ms.length ∧ 65535 < correctedLoad (meanLoad ms) k := by
  by_cases few : ms.length < minZones
  · simp [railLoad, loadClamped, few]
  · simp [railLoad, loadClamped, few, Nat.le_of_not_lt few]

/-- R107: the spread is the difference of two masses that bound the others. -/
theorem exists_spread_eq_sub (present : ms ≠ []) :
    ∃ hi ∈ ms, ∃ lo ∈ ms, spread ms = hi - lo ∧ ∀ m ∈ ms, lo ≤ m ∧ m ≤ hi := by
  obtain ⟨m, rest, rfl⟩ := List.exists_cons_of_ne_nil present
  obtain ⟨hi, largest⟩ := List.max?_eq_some_iff.1 (List.max?_cons' (x := m) (xs := rest))
  obtain ⟨lo, smallest⟩ := List.min?_eq_some_iff.1 (List.min?_cons' (x := m) (xs := rest))
  exact ⟨_, hi, _, lo, by simp [spread], fun x hx => ⟨smallest x hx, largest x hx⟩⟩

/-- R107: DYNAMIC is raised by two masses that lie far enough apart. -/
theorem railDynamic_iff (spreadLimit : Nat) (one : 1 ≤ minZones) :
    railDynamic minZones spreadLimit ms = true ↔
      ∃ hi lo, minZones ≤ ms.length ∧ hi ∈ ms ∧ lo ∈ ms ∧ meanLoad ms * spreadLimit < (hi - lo) * 256 := by
  by_cases few : ms.length < minZones
  · simp [railDynamic, railLoad, few]
  · have enough := Nat.le_of_not_lt few
    obtain ⟨hi, hiMem, lo, loMem, spread_eq, bounds⟩ :=
      exists_spread_eq_sub (List.ne_nil_of_length_pos (one.trans enough))
    simp only [railDynamic, railLoad, if_neg few, decide_eq_true_eq, spread_eq]
    constructor
    · exact fun far => ⟨hi, lo, enough, hiMem, loMem, far⟩
    · rintro ⟨x, y, -, hx, hy, far⟩
      have within : x - y ≤ hi - lo := tsub_le_tsub (bounds x hx).2 (bounds y hy).1
      exact far.trans_le (Nat.mul_le_mul_right _ within)

end

/-- R111. -/
theorem axleLoadOf_ite (p q : Prop) [Decidable p] [Decidable q] (n s : Nat) :
    axleLoadOf (if p then none else some n) (if q then none else some s) =
      if p ∨ q then none else some (n + s) := by
  by_cases hp : p <;> by_cases hq : q <;> simp [hp, hq, axleLoadOf]

/-! ## Flags -/

theorem AxleFlag.getLsbD_mask (g f : AxleFlag) : g.mask.getLsbD f.bit = decide (f = g) := by
  cases g <;> cases f <;> rfl

theorem hasAxleFlag_axleFlagIf (c : Bool) (g f : AxleFlag) :
    hasAxleFlag (axleFlagIf c g) f = true ↔ f = g ∧ c = true := by
  cases c <;> simp [hasAxleFlag, axleFlagIf, AxleFlag.getLsbD_mask]

theorem hasAxleFlag_or (x y : AxleFlags) (f : AxleFlag) :
    hasAxleFlag (x ||| y) f = true ↔ hasAxleFlag x f = true ∨ hasAxleFlag y f = true := by
  simp [hasAxleFlag]

/-! ## The Load Combiner -/

namespace AxleRecord
variable (l : Limits) (curve : Option (Vector CurvePoint 8)) (zones : List (Fin 4)) (pOut : Nat) (a : AxleRecord)

/-- R105: the combiner writes the loads and the flags. -/
theorem combine_eq :
    a.combine l curve zones pOut =
      { a with
        north := railCorrected (speedFactor curve a.speed) (railLoad l.minZones (a.railMasses zones .north))
        south := railCorrected (speedFactor curve a.speed) (railLoad l.minZones (a.railMasses zones .south))
        axleLoad :=
          axleLoadOf (railCorrected (speedFactor curve a.speed) (railLoad l.minZones (a.railMasses zones .north)))
            (railCorrected (speedFactor curve a.speed) (railLoad l.minZones (a.railMasses zones .south)))
        flags := (a.combine l curve zones pOut).flags } := rfl

/-- R106, R107, R109, R110, R112: where the combiner adds a flag. -/
theorem hasAxleFlag_combine (f : AxleFlag) :
    hasAxleFlag (a.combine l curve zones pOut).flags f = true ↔
      hasAxleFlag a.flags f = true ∨
        (f = .unweighed ∧ ∃ r, (railLoad l.minZones (a.railMasses zones r)).isNone = true) ∨
        (f = .dynamic ∧ ∃ r, railDynamic l.minZones l.spreadLimit (a.railMasses zones r) = true) ∨
        (f = .speedLow ∧ a.speed < l.vMin) ∨ (f = .overspeed ∧ l.vMax < a.speed) ∨
        (f = .overrange ∧
          ∃ r, loadClamped (speedFactor curve a.speed) (railLoad l.minZones (a.railMasses zones r)) = true) ∨
        (f = .accel ∧ accelerates l.accelLimit a.entryPace pOut = true) := by
  simp only [combine, hasAxleFlag_or, hasAxleFlag_axleFlagIf, Rail.exists_iff, Bool.or_eq_true, decide_eq_true_eq,
    or_assoc]

end AxleRecord

/-- R112. -/
theorem accelerates_iff (accelLimit pIn pOut : Nat) :
    accelerates accelLimit pIn pOut = true ↔ pIn * accelLimit < (max pOut pIn - min pOut pIn) * 64 := by
  rw [accelerates, decide_eq_true_eq, absDiff_eq_max_sub_min]

end Sys2Proof.Machine

/-! ## The statements -/

open Sys2Proof Sys2Proof.Machine

/-- Settles O30: each row of R108 from the points that lie below v, the range from the factors of the points. -/
theorem speedFactorStaysBetweenPoints : Obligations.SpeedFactorStaysBetweenPoints := by
  unfold Obligations.SpeedFactorStaysBetweenPoints
  intro k v passed
  have rising := curve_speeds_rise passed
  refine ⟨curveFactor_of_le_first (curve_eq_first_cons k), curveFactor_of_last_le rising, ?_,
    curveFactor_mem_range (curve_factors_in_range passed)⟩
  rintro i p q rfl rfl left right
  have segment := interpolate_segment (rest := k.toList.drop (i + 2)) left right
  rw [← curveFactor_of_segment rising (by omega) left, roundHalfUpInt, Int.ofNat_sub (left.le.trans right)] at segment
  exact segment

/-- Settles O31: the loads by what a rail with enough masses has, each flag by its own condition. -/
theorem loadsAreCombinedFromTheEstimates : Obligations.LoadsAreCombinedFromTheEstimates := by
  unfold Obligations.LoadsAreCombinedFromTheEstimates
  rintro l curve zones pOut a b ms k mean corrected one rfl rfl rails
  obtain rfl : ms = a.railMasses zones := funext fun r => (rails r).1
  have mean_eq : ∀ r, mean r = meanLoad (a.railMasses zones r) := fun r => (rails r).2.1
  have corrected_eq : ∀ r,
      corrected r = correctedLoad (meanLoad (a.railMasses zones r)) (speedFactor curve a.speed) := by
    intro r
    rw [correctedLoad_eq, ← mean_eq]
    exact (rails r).2.2
  refine ⟨?loads, fun f => ?flags, fun r m => a.mem_railMasses zones r m⟩
  case loads =>
    simp only [corrected_eq, ← railCorrected_railLoad, ← axleLoadOf_ite]
    exact AxleRecord.combine_eq l curve zones pOut a
  case flags =>
    simp only [AxleRecord.hasAxleFlag_combine, railLoad_isNone, railDynamic_iff _ one, loadClamped_railLoad,
      accelerates_iff, mean_eq, corrected_eq]
end

section
/-! A vehicle's totals, speed and flags (R137 to R139). -/

namespace Sys2Proof.Machine

/-! ## Sums of optional loads -/

section
variable {xs : List (Option Nat)} {axles : List AxleRecord} {load : AxleRecord → Option Nat}

/-- R137: one absent load makes the sum absent. -/
theorem sumPresent_eq_none (absent : none ∈ xs) : sumPresent xs = none := by
  induction xs with
  | nil => cases absent
  | cons x xs ih =>
    rcases List.mem_cons.1 absent with rfl | later
    · rfl
    · cases x <;> simp [sumPresent, ih later]

/-- R137: a sum whose loads are all present. -/
theorem sumPresent_map_some (ns : List Nat) : sumPresent (ns.map some) = some ns.sum := by
  induction ns with
  | nil => rfl
  | cons n ns ih => simp [sumPresent, ih]

/-- The loads of axles that all carry one. -/
theorem map_eq_map_some_getD (present : ∀ a ∈ axles, load a ≠ none) :
    axles.map load = (axles.map fun a => (load a).getD 0).map some := by
  rw [List.map_map]
  refine List.map_congr_left fun a ha => ?_
  obtain ⟨n, given⟩ := Option.ne_none_iff_exists'.1 (present a ha)
  simp [given]

end

/-- R111: an axle load that is there is the sum of two rail loads. -/
theorem rails_of_axleLoad {a : AxleRecord} (sum : a.axleLoad = (a.north.bind fun n => a.south.map fun m => n + m))
    (loaded : a.axleLoad ≠ none) :
    a.north ≠ none ∧ a.south ≠ none ∧ a.north.getD 0 + a.south.getD 0 = a.axleLoad.getD 0 := by
  rw [sum] at loaded ⊢
  cases hn : a.north <;> cases hs : a.south <;> simp [hn, hs] at loaded ⊢

/-- R137: axles that all carry an axle load carry both rail loads, whose totals make up the gross. -/
theorem rails_of_axleLoads {axles : List AxleRecord}
    (sums : ∀ a ∈ axles, a.axleLoad = (a.north.bind fun n => a.south.map fun m => n + m))
    (loaded : ∀ a ∈ axles, a.axleLoad ≠ none) :
    (∀ a ∈ axles, a.north ≠ none) ∧ (∀ a ∈ axles, a.south ≠ none) ∧
      (axles.map fun a => a.north.getD 0).sum + (axles.map fun a => a.south.getD 0).sum =
        (axles.map fun a => a.axleLoad.getD 0).sum := by
  have rails := fun a ha => rails_of_axleLoad (sums a ha) (loaded a ha)
  refine ⟨fun a ha => (rails a ha).1, fun a ha => (rails a ha).2.1, ?_⟩
  rw [← List.sum_map_add]
  exact congrArg List.sum (List.map_congr_left fun a ha => (rails a ha).2.2)

/-! ## Vehicle flags -/

theorem VehicleFlag.getLsbD_mask (g f : VehicleFlag) : g.mask.getLsbD f.bit = decide (f = g) := by
  cases g <;> cases f <;> rfl

/-- R184: a vehicle flag lies above every axle flag. -/
theorem VehicleFlag.getLsbD_mask_axle (g : VehicleFlag) (f : AxleFlag) : g.mask.getLsbD f.bit = false := by
  cases g <;> cases f <;> rfl

theorem VehicleFlag.twelve_le_bit (f : VehicleFlag) : 12 ≤ f.bit := by
  cases f <;> decide

theorem hasVehicleFlag_or (x y : VehicleFlags) (f : VehicleFlag) :
    hasVehicleFlag (x ||| y) f = (hasVehicleFlag x f || hasVehicleFlag y f) :=
  BitVec.getLsbD_or

theorem hasVehicleFlag_vehicleFlagIf (c : Bool) (g f : VehicleFlag) :
    hasVehicleFlag (vehicleFlagIf c g) f = (decide (f = g) && c) := by
  cases c <;> simp [hasVehicleFlag, vehicleFlagIf, VehicleFlag.getLsbD_mask]

theorem getLsbD_vehicleFlagIf_axle (c : Bool) (g : VehicleFlag) (f : AxleFlag) :
    (vehicleFlagIf c g).getLsbD f.bit = false := by
  cases c <;> simp [vehicleFlagIf, VehicleFlag.getLsbD_mask_axle]

/-- R139: the union holds a bit that one of the axles holds. -/
theorem getLsbD_unionAxleFlags (axles : List AxleRecord) (i : Nat) :
    (unionAxleFlags axles).getLsbD i = axles.any fun a => a.flags.getLsbD i := by
  have folded : ∀ acc : VehicleFlags,
      (axles.foldl (fun acc a => acc ||| a.flags.setWidth 32) acc).getLsbD i =
        (acc.getLsbD i || axles.any fun a => a.flags.getLsbD i) := by
    induction axles with
    | nil => simp
    | cons a axles ih =>
      intro acc
      have widened : (a.flags.setWidth 32).getLsbD i = a.flags.getLsbD i := by
        by_cases inside : i < 32
        · simp [inside]
        · simp [inside, BitVec.getLsbD_of_ge a.flags i (by omega)]
      rw [List.foldl_cons, ih, BitVec.getLsbD_or, widened, List.any_cons, Bool.or_assoc]
  simpa [unionAxleFlags] using folded 0

theorem hasVehicleFlag_unionAxleFlags {axles : List AxleRecord} (sound : ∀ a ∈ axles, a.flags.toNat < 4096)
    (f : VehicleFlag) : hasVehicleFlag (unionAxleFlags axles) f = false := by
  rw [hasVehicleFlag, getLsbD_unionAxleFlags, List.any_eq_false]
  intro a ha
  have below : a.flags.toNat < 2 ^ f.bit :=
    calc a.flags.toNat < 2 ^ 12 := sound a ha
      _ ≤ 2 ^ f.bit := Nat.pow_le_pow_right (by decide) f.twelve_le_bit
  simp [BitVec.getLsbD, Nat.testBit_lt_two_pow below]

/-! ## The totals -/

theorem netOf_some (g : Nat) (tare : Option Nat) : netOf (some g) tare = tare.map fun t => g - t := by
  cases tare <;> rfl

theorem underTare_some_iff (g : Nat) (tare : Option Nat) :
    underTare (some g) tare = true ↔ ∃ t, tare = some t ∧ g < t := by
  cases tare <;> simp [underTare]

theorem overload_some_iff (g : Nat) (maxGross : Option Nat) :
    overload (some g) maxGross = true ↔ ∃ m, maxGross = some m ∧ m < g := by
  cases maxGross <;> simp [overload]

/-- R138. -/
theorem imbalanced_iff (limit gross a b : Nat) :
    imbalanced limit gross a b = true ↔ gross * limit < (max a b - min a b) * 256 := by
  rw [imbalanced, decide_eq_true_eq, absDiff_eq_max_sub_min]

section
variable (l : Limits) (v : Vehicle) (axles : List AxleRecord)

theorem map_some_bind (load : AxleRecord → Option Nat) :
    ((axles.map some).map fun r => r.bind load) = axles.map load := by
  simp [Function.comp_def]

/-- R139. -/
theorem vehicleTotals_speed :
    (vehicleTotals l v (axles.map some)).speed = roundHalfUp (axles.map AxleRecord.speed).sum v.count := by
  simp [vehicleTotals]

/-- R139: the axle flags of a vehicle are those of its axles. -/
theorem vehicleTotals_axle_flag (f : AxleFlag) :
    (vehicleTotals l v (axles.map some)).flags.getLsbD f.bit = axles.any fun a => hasAxleFlag a.flags f := by
  simp [vehicleTotals, getLsbD_vehicleFlagIf_axle, getLsbD_unionAxleFlags, hasAxleFlag]

variable {axles}

/-- R137: the totals when an axle carries no load. -/
theorem vehicleTotals_of_absent (absent : none ∈ axles.map AxleRecord.axleLoad) :
    vehicleTotals l v (axles.map some) =
      { gross := none, nTotal := none, sTotal := none, net := none
        speed := roundHalfUp (axles.map AxleRecord.speed).sum v.count
        flags :=
          unionAxleFlags axles ||| vehicleFlagIf v.unmatched .unmatched
            ||| vehicleFlagIf v.uncertain .spacingUncertain ||| vehicleFlagIf true .incomplete } := by
  simp only [vehicleTotals, map_some_bind, sumPresent_eq_none absent]
  simp [netOf, underTare, overload, vehicleFlagIf]

variable {loads north south : List Nat}

/-- R137, R138: the totals when every axle carries its loads. -/
theorem vehicleTotals_of_present (hl : axles.map AxleRecord.axleLoad = loads.map some)
    (hn : axles.map AxleRecord.north = north.map some) (hs : axles.map AxleRecord.south = south.map some) :
    vehicleTotals l v (axles.map some) =
      { gross := some loads.sum, nTotal := some north.sum, sTotal := some south.sum
        net := v.tare.map fun t => loads.sum - t
        speed := roundHalfUp (axles.map AxleRecord.speed).sum v.count
        flags :=
          unionAxleFlags axles ||| vehicleFlagIf v.unmatched .unmatched
            ||| vehicleFlagIf v.uncertain .spacingUncertain
            ||| vehicleFlagIf (underTare (some loads.sum) v.tare) .underTare
            ||| vehicleFlagIf (overload (some loads.sum) v.maxGross) .overload
            ||| vehicleFlagIf (imbalanced l.lrLimit loads.sum north.sum south.sum) .sideImbalance
            ||| vehicleFlagIf (imbalanced l.endLimit loads.sum (loads.take (v.count / 2)).sum
                (loads.drop (loads.length - v.count / 2)).sum) .endImbalance } := by
  simp only [vehicleTotals, map_some_bind, hl, hn, hs, sumPresent_map_some]
  simp [netOf_some, vehicleFlagIf]

variable (sound : ∀ a ∈ axles, a.flags.toNat < 4096)
include sound

theorem vehicleTotals_unmatched :
    hasVehicleFlag (vehicleTotals l v (axles.map some)).flags .unmatched = v.unmatched := by
  simp [vehicleTotals, hasVehicleFlag_or, hasVehicleFlag_vehicleFlagIf, hasVehicleFlag_unionAxleFlags sound]

theorem vehicleTotals_spacingUncertain :
    hasVehicleFlag (vehicleTotals l v (axles.map some)).flags .spacingUncertain = v.uncertain := by
  simp [vehicleTotals, hasVehicleFlag_or, hasVehicleFlag_vehicleFlagIf, hasVehicleFlag_unionAxleFlags sound]

end

end Sys2Proof.Machine

/-! ## The statement -/

open Sys2Proof Sys2Proof.Machine

/-- Settles O32: the totals of a vehicle by whether one of its axles carries no load. -/
theorem vehicleTotalsAddUp : Obligations.VehicleTotalsAddUp := by
  unfold Obligations.VehicleTotalsAddUp
  rintro l v axles x loads g nt st count - axle rfl rfl rfl rfl rfl
  obtain ⟨sums, sound⟩ := forall₂_and.1 axle
  refine ⟨by rw [vehicleTotals_speed, roundHalfUp], vehicleTotals_axle_flag l v axles,
    vehicleTotals_unmatched l v sound, vehicleTotals_spacingUncertain l v sound, ?absent, ?present⟩
  case absent =>
    rintro ⟨a, ha, unloaded⟩
    rw [vehicleTotals_of_absent l v (List.mem_map.2 ⟨a, ha, unloaded⟩)]
    simp [hasVehicleFlag_or, hasVehicleFlag_vehicleFlagIf, hasVehicleFlag_unionAxleFlags sound]
  case present =>
    intro loaded
    obtain ⟨north, south, total⟩ := rails_of_axleLoads sums loaded
    rw [vehicleTotals_of_present l v (map_eq_map_some_getD loaded) (map_eq_map_some_getD north)
      (map_eq_map_some_getD south)]
    simp only [hasVehicleFlag_or, hasVehicleFlag_vehicleFlagIf, hasVehicleFlag_unionAxleFlags sound, reduceCtorEq,
      decide_false, decide_true, Bool.false_and, Bool.true_and, Bool.false_or, Bool.or_false, true_and]
    refine ⟨total, underTare_some_iff _ _, overload_some_iff _ _, imbalanced_iff _ _ _ _, ?_⟩
    rintro front rear rfl rfl
    rw [imbalanced_iff, List.length_map, count]
end

section
/-! Notice causes (R161). -/

open Sys2Proof Sys2Proof.Machine

/-- Settles O3: the register after a cause is `NoticeUnit.raise`, read back at the kind of the cause and at any other. -/
theorem noticeCausesAreRegistered : Obligations.NoticeCausesAreRegistered := by
  unfold Obligations.NoticeCausesAreRegistered
  intro k n s
  refine ⟨s.notices.raise k n, ?state, ?levels, ?same, ?other⟩
  case state => rfl
  case levels => exact s.notices.raise_levels k n
  case same => exact s.notices.entry_raise k n
  case other => exact fun _ different => s.notices.entry_raise_of_ne different n
end

section
/-! Causes in turn, occurrences at the counters, and estimates handed to the axle records (R76, R97, R161, R175, R177). -/

namespace Sys2Proof.Machine

/-! ## Causes in turn -/

/-- Causes of one kind, raised in turn. -/
def NoticeUnit.raises (k : NoticeKind) (args : List Nat) (u : NoticeUnit) : NoticeUnit :=
  args.foldl (fun u n => u.raise k n) u

section
variable (u : NoticeUnit) (k : NoticeKind)

@[simp] theorem NoticeUnit.raises_nil : u.raises k [] = u := rfl

theorem NoticeUnit.raises_cons (a : Nat) (args : List Nat) : u.raises k (a :: args) = (u.raise k a).raises k args := rfl

theorem NoticeUnit.level_raise (m : NoticeKind) (a : Nat) : (u.raise k a).level m = u.level m := rfl

@[simp] theorem NoticeUnit.raises_levels (args : List Nat) : (u.raises k args).levels = u.levels := by
  induction args generalizing u with
  | nil => rfl
  | cons a args ih => rw [raises_cons, ih, raise_levels]

/-- R161: the entry of the kind after its causes. -/
theorem NoticeUnit.entry_raises (args : List Nat) : (u.raises k args).entry k = (u.entry k).after (u.level k) args := by
  induction args generalizing u with
  | nil => rfl
  | cons a args ih =>
    rw [raises_cons, ih, entry_raise, level_raise, ← List.singleton_append, NoticeEntry.after_append]
    rfl

theorem NoticeUnit.entry_raises_of_ne {m : NoticeKind} (different : m ≠ k) (args : List Nat) :
    (u.raises k args).entry m = u.entry m := by
  induction args generalizing u with
  | nil => rfl
  | cons a args ih => rw [raises_cons, ih, entry_raise_of_ne _ different]

/-- A kind that was raised has a count. -/
theorem NoticeUnit.count_raises_ne_zero {args : List Nat} (raised : args ≠ []) : ((u.raises k args).entry k).count ≠ 0 := by
  obtain ⟨front, a, rfl⟩ : ∃ front a, args = front ++ [a] := ⟨_, _, (List.dropLast_concat_getLast raised).symm⟩
  rw [entry_raises]
  simp [NoticeEntry.after]

end

/-! ## Counters -/

/-- R175: what occurrences of an event make of a counter. -/
theorem Counter.occur_eq (e : CounterEvent) (n : Nat) (c : Counter) :
    (c.occur e n).1 =
      if c.selection.event = e then
        { c with
          value := min 4294967295 (c.value + n)
          overflow := c.overflow || decide (c.value < 4294967295 ∧ 4294967295 ≤ c.value + n) }
      else c := by
  unfold Counter.occur Counter.add counterMax
  split
  · split
    next full => simp [full]
    next part => simp [part]
  · rfl

theorem Counter.occur_eq_counted (e : CounterEvent) (n : Nat) {c : Counter} (fits : c.value ≤ 4294967295) :
    (c.occur e n).1 = c.counted (c.ofEvent e n) := by
  rw [occur_eq]
  unfold Counter.ofEvent
  split
  · rfl
  · exact (c.counted_zero fits).symm

/-- The counters that an update fills, in order. -/
def State.filled (s : State) (f : Counter → Counter × Bool) : List Nat :=
  ((List.finRange 4).filter fun i => (f s.counters[i]).2).map Fin.val

section
variable (f : Counter → Counter × Bool) (s : State)

/-- R177: an update of the counters writes the counters and raises STATS_FULL for each one it fills. -/
theorem updateCounters_eq :
    updateCounters f s =
      { s with counters := (updateCounters f s).counters, notices := s.notices.raises .statsFull (s.filled f) } := by
  unfold updateCounters State.filled
  simp only [State.mk.injEq, true_and]
  have four : List.finRange 4 = [0, 1, 2, 3] := rfl
  rw [four]
  simp only [List.filter_cons, List.filter_nil]
  split <;> split <;> split <;> split <;> simp_all [NoticeUnit.raises]

theorem mem_filled (i : Fin 4) : i.val ∈ s.filled f ↔ (f s.counters[i]).2 = true := by
  simp only [State.filled, List.mem_map, List.mem_filter, List.mem_finRange, true_and, Fin.val_inj, exists_eq_right]

theorem filled_eq_nil : s.filled f = [] ↔ ∀ i : Fin 4, (f s.counters[i]).2 = false := by
  simp [State.filled]

end

theorem Counter.occur_full (e : CounterEvent) (n : Nat) (c : Counter) :
    (c.occur e n).2 = true ↔ c.selection.event = e ∧ c.value < 4294967295 ∧ 4294967295 ≤ c.value + n := by
  unfold Counter.occur
  split
  next selected => simp [selected, (c.add_spec n).2.1, counterMax]
  next other => simp [other]

/-- An update that counts at every counter tallies. -/
theorem updateCounters_counts {f : Counter → Counter × Bool} {n : Counter → Nat}
    (counts : ∀ c : Counter, c.value ≤ 4294967295 → (f c).1 = c.counted (n c)) (s : State) :
    s.Counts (updateCounters f s) n [] := by
  refine ⟨fun i fits => ?_, ?_, fun m other _ => ?_⟩
  · rw [updateCounters_get, counts _ fits]
  · rw [updateCounters_eq]
    exact NoticeUnit.raises_levels _ _ _
  · rw [updateCounters_eq]
    exact NoticeUnit.entry_raises_of_ne _ _ other _

theorem countEvent_counts (e : CounterEvent) (n : Nat) (s : State) :
    s.Counts (countEvent e n s) (Counter.ofEvent e n) [] :=
  updateCounters_counts (fun _ => Counter.occur_eq_counted e n) s

/-- Counts that begin and end at states with the same counters and notices. -/
theorem State.Counts.congr {s s' t t' : State} {n : Counter → Nat} {e : List NoticeKind} (h : s.Counts t n e)
    (counters : s'.counters = s.counters) (notices : s'.notices = s.notices) (counters' : t'.counters = t.counters)
    (notices' : t'.notices = t.notices) : s'.Counts t' n e := by
  unfold State.Counts
  rw [counters, notices, counters', notices']
  exact h

/-- Counts of equal numbers. -/
theorem State.Counts.of_eq {s t : State} {n m : Counter → Nat} {e : List NoticeKind} (h : s.Counts t n e)
    (eq : ∀ c, n c = m c) : s.Counts t m e := (funext eq : n = m) ▸ h

/-- Counts that except more kinds. -/
theorem State.Counts.mono {s t : State} {n : Counter → Nat} {e f : List NoticeKind} (h : s.Counts t n e)
    (more : ∀ k ∈ e, k ∈ f) : s.Counts t n f :=
  ⟨h.1, h.2.1, fun m other none => h.2.2 m other fun hm => none (more m hm)⟩

/-- A cause is a count of nothing that excepts its kind. -/
theorem raiseCause_counts (k : NoticeKind) (n : Nat) (s : State) : s.Counts (raiseCause k n s) (fun _ => 0) [k] :=
  ⟨fun i fits => (Counter.counted_zero s.counters[i] fits).symm, rfl,
    fun _ _ other => s.notices.entry_raise_of_ne (by simpa using other) n⟩

theorem Counter.ofEvent_add (e : CounterEvent) (m n : Nat) (c : Counter) :
    c.ofEvent e m + c.ofEvent e n = c.ofEvent e (m + n) := by
  unfold Counter.ofEvent
  split <;> simp

@[simp] theorem Counter.ofEvent_zero (e : CounterEvent) (c : Counter) : c.ofEvent e 0 = 0 := by
  simp [Counter.ofEvent]

/-- Occurrences of one event that follow one another. -/
theorem State.Counts.trans_ofEvent {s t u : State} {e : CounterEvent} {m n : Nat} {f g : List NoticeKind}
    (h : s.Counts t (Counter.ofEvent e m) f) (k : t.Counts u (Counter.ofEvent e n) g) :
    s.Counts u (Counter.ofEvent e (m + n)) (f ++ g) :=
  (h.trans k fun _ _ => rfl).of_eq (Counter.ofEvent_add e m n)

/-! ## Estimates handed to the records -/

/-- A record after estimates handed in turn, each for an ordinal (R76). -/
def AxleRecord.takeEstimates (lastOn : Nat) (hs : List Handed) (a : AxleRecord) : AxleRecord :=
  hs.foldl (fun a h => if h.ordinal = a.ordinal then a.takeEstimate lastOn h else a) a

/-- The estimates handed that are an occurrence of ZONE_REJECTS (R97). -/
def rejects (hs : List Handed) : Nat := (hs.filter fun h => h.condition ≠ .valid).length

@[simp] theorem rejects_nil : rejects [] = 0 := rfl

theorem rejects_append (hs ks : List Handed) : rejects (hs ++ ks) = rejects hs + rejects ks := by
  simp [rejects]

@[simp] theorem AxleRecord.takeEstimates_nil (n : Nat) (a : AxleRecord) : a.takeEstimates n [] = a := rfl

theorem AxleRecord.takeEstimates_append (n : Nat) (hs ks : List Handed) (a : AxleRecord) :
    a.takeEstimates n (hs ++ ks) = (a.takeEstimates n hs).takeEstimates n ks := List.foldl_append

/-- An estimate writes the estimates and the flags of a record. -/
theorem AxleRecord.takeEstimate_eq (n : Nat) (h : Handed) (a : AxleRecord) :
    a.takeEstimate n h =
      { a with estimates := (a.takeEstimate n h).estimates, flags := (a.takeEstimate n h).flags } := by
  unfold takeEstimate
  split <;> rfl

/-- Estimates write the estimates and the flags of a record. -/
theorem AxleRecord.takeEstimates_eq (n : Nat) (hs : List Handed) (a : AxleRecord) :
    a.takeEstimates n hs =
      { a with estimates := (a.takeEstimates n hs).estimates, flags := (a.takeEstimates n hs).flags } := by
  induction hs generalizing a with
  | nil => rfl
  | cons h hs ih =>
    have first : a.takeEstimates n (h :: hs) =
        (if h.ordinal = a.ordinal then a.takeEstimate n h else a).takeEstimates n hs := rfl
    rw [first]
    split
    · rw [ih, takeEstimate_eq]
    · exact ih a

theorem AxleRecord.takeEstimates_ordinal (n : Nat) (hs : List Handed) (a : AxleRecord) :
    (a.takeEstimates n hs).ordinal = a.ordinal := by rw [takeEstimates_eq]

/-- An estimate handed on writes the records and counts (R76, R97). -/
theorem handEstimate_eq (h : Handed) (s : State) :
    handEstimate h s =
      { s with
        axles := { s.axles with queue := s.axles.queue.map (AxleRecord.takeEstimates s.axles.lastOn [h]) }
        counters := (handEstimate h s).counters, notices := (handEstimate h s).notices } := by
  have one : AxleRecord.takeEstimates s.axles.lastOn [h] =
      fun a => if a.ordinal = h.ordinal then a.takeEstimate s.axles.lastOn h else a := by
    funext a
    simp [AxleRecord.takeEstimates, eq_comm]
  rw [one]
  unfold handEstimate
  split <;> rfl

theorem handEstimate_counts (h : Handed) (s : State) :
    s.Counts (handEstimate h s) (Counter.ofEvent .zoneRejects (rejects [h])) [] := by
  unfold handEstimate rejects
  by_cases valid : h.condition = .valid
  · simp only [valid, if_true]
    exact (State.Counts.refl s).of_eq (by simp [Counter.ofEvent, valid])
  · have one : ([h].filter fun h => h.condition ≠ .valid).length = 1 := by simp [valid]
    rw [one]
    simp only [valid, if_false]
    exact countEvent_counts .zoneRejects 1 s

/-- Estimates handed in turn write the records and count (R76, R97). -/
theorem handEstimates_eq (hs : List Handed) (s : State) :
    handEstimates hs s =
      { s with
        axles := { s.axles with queue := s.axles.queue.map (AxleRecord.takeEstimates s.axles.lastOn hs) }
        counters := (handEstimates hs s).counters, notices := (handEstimates hs s).notices } := by
  induction hs generalizing s with
  | nil => simp [handEstimates, show (AxleRecord.takeEstimates s.axles.lastOn []) = id from rfl]
  | cons h hs ih =>
    have first : handEstimates (h :: hs) s = handEstimates hs (handEstimate h s) := rfl
    rw [first, ih, handEstimate_eq]
    simp only [List.map_map]
    congr 3

theorem handEstimates_counts (hs : List Handed) (s : State) :
    s.Counts (handEstimates hs s) (Counter.ofEvent .zoneRejects (rejects hs)) [] := by
  induction hs generalizing s with
  | nil => exact (State.Counts.refl s).of_eq (by simp)
  | cons h hs ih =>
    rw [← List.singleton_append, rejects_append]
    exact (handEstimate_counts h s).trans_ofEvent (ih _)

end Sys2Proof.Machine
end

section
/-! The Zone Units: what one unit keeps through each of its operations (R82 to R101), and a pass over the units that hands
their estimates to the Axle Tracker (R70, R76, R83, R99). -/

namespace Sys2Proof.Machine

/-! ## Channels of a unit -/

section
variable (u : ZoneUnit) (k : ZoneTables) (t : Scan) (r q : Rail)

theorem ZoneUnit.setChannel_channel (c : Channel) :
    (u.setChannel r c).channel q = if q = r then c else u.channel q := by
  cases r <;> cases q <;> rfl

@[simp] theorem ZoneUnit.setChannel_windows (c : Channel) : (u.setChannel r c).windows = u.windows := by cases r <;> rfl

/-- Stage 4 leaves the windows alone. -/
@[simp] theorem ZoneUnit.detect_windows (a : Sample) : (u.detect k t r a).1.windows = u.windows := by
  unfold detect
  split <;> simp

/-- Stage 4 at the channel of a rail with a record (R86 to R88). -/
theorem ZoneUnit.detect_of_record {rec : ChannelRecord} (held : k.record r = some rec) (a : Sample) :
    u.detect k t r a = (u.setChannel r ((u.channel r).detect k.nOn k.nOff rec t a).1,
      ((u.channel r).detect k.nOn k.nOff rec t a).2) := by
  unfold detect
  rw [held]

/-- Stage 4 at the channel of a rail without a record (R82). -/
theorem ZoneUnit.detect_of_no_record (absent : k.record r = none) (a : Sample) : u.detect k t r a = (u, none) := by
  unfold detect
  rw [absent]

/-- Stage 4 for a rail leaves the other channel alone. -/
theorem ZoneUnit.detect_channel_of_ne (other : q ≠ r) (a : Sample) : (u.detect k t r a).1.channel q = u.channel q := by
  cases held : k.record r with
  | none => rw [detect_of_no_record u k t r held]
  | some rec => rw [detect_of_record u k t r held, setChannel_channel, if_neg other]

@[simp] theorem ZoneUnit.offer_channel (e : Option PresenceEvent) : (u.offer k r e).channel q = u.channel q := by
  cases e <;> cases q <;> rfl

@[simp] theorem ZoneUnit.confirm_channel : (u.confirm k).1.channel q = u.channel q := by cases q <;> rfl

@[simp] theorem ZoneUnit.deadline_channel : (u.deadline k t).1.channel q = u.channel q := by cases q <;> rfl

@[simp] theorem ZoneUnit.progress_channel : (u.progress t).channel q = u.channel q := by cases q <;> rfl

@[simp] theorem ZoneUnit.accumulate_channel (n s : Sample) : (u.accumulate t n s).channel q = u.channel q := by
  cases q <;> rfl

@[simp] theorem ZoneUnit.track_windows (a : Sample) : (u.track k t r a).1.windows = u.windows := by
  unfold track
  split <;> simp

/-- Stage 7 at the channel of a rail with a record (R84). -/
theorem ZoneUnit.track_of_record {rec : ChannelRecord} (held : k.record r = some rec) (a : Sample) :
    u.track k t r a = (u.setChannel r ((u.channel r).track rec (u.windows.any fun w => w.covers k.tol t) a).1,
      ((u.channel r).track rec (u.windows.any fun w => w.covers k.tol t) a).2) := by
  unfold track
  rw [held]

/-- Stage 7 at the channel of a rail without a record (R82). -/
theorem ZoneUnit.track_of_no_record (absent : k.record r = none) (a : Sample) : u.track k t r a = (u, false) := by
  unfold track
  rw [absent]

theorem ZoneUnit.track_channel_of_ne (other : q ≠ r) (a : Sample) : (u.track k t r a).1.channel q = u.channel q := by
  cases held : k.record r with
  | none => rw [track_of_no_record u k t r held]
  | some rec => rw [track_of_record u k t r held, setChannel_channel, if_neg other]

/-- R93 at a channel: an active one loses its partial block and presence run, any other keeps its state. -/
theorem ZoneUnit.applyGap_channel (m0 m1 : Scan) :
    (u.applyGap k m0 m1).channel r = if k.record r = none then u.channel r else (u.channel r).dropPartial := by
  unfold applyGap
  rw [forActive_channel]
  cases k.record r <;> cases r <;> rfl

end

/-! ## A whole scan at a unit -/

section
variable (k : ZoneTables) (t : Scan) (missing : Option (Scan × Scan)) (n s : Sample) (u : ZoneUnit)

/-- Stage 1 where there is a gap (R93). -/
def ZoneUnit.gapped (u : ZoneUnit) : ZoneUnit :=
  match missing with
  | some (m0, m1) => u.applyGap k m0 m1
  | none => u

/-- Stages 1 to 3 (R92, R93). -/
def ZoneUnit.filled (u : ZoneUnit) : ZoneUnit := ((u.gapped k missing).progress t).accumulate t n s

/-- Stages 1 to 4 (R86 to R88): the unit, and the presence event of each rail. -/
def ZoneUnit.sensed (u : ZoneUnit) : ZoneUnit := (((u.filled k t missing n s).detect k t .north n).1.detect k t .south s).1

/-- The presence event of a rail in stage 4. -/
def ZoneUnit.event (u : ZoneUnit) : Rail → Option PresenceEvent
  | .north => ((u.filled k t missing n s).detect k t .north n).2
  | .south => (((u.filled k t missing n s).detect k t .north n).1.detect k t .south s).2

/-- Stages 1 to 5 but for the decisions (R94, R96). -/
def ZoneUnit.offered (u : ZoneUnit) : ZoneUnit :=
  ((u.sensed k t missing n s).offer k .north (u.event k t missing n s .north)).offer k .south
    (u.event k t missing n s .south)

/-- Stages 1 to 6 (R96 to R98). -/
def ZoneUnit.settled (u : ZoneUnit) : ZoneUnit := (((u.offered k t missing n s).confirm k).1.deadline k t).1

/-- The stages of R83 one behind the other. -/
theorem ZoneUnit.scan_eq :
    u.scan k t missing n s =
      { unit := (((u.settled k t missing n s).track k t .north n).1.track k t .south s).1
        handed := ((u.offered k t missing n s).confirm k).2 ++ (((u.offered k t missing n s).confirm k).1.deadline k t).2
        phantoms :=
          (if (u.sensed k t missing n s).isPhantom k (u.event k t missing n s .north) then [Rail.north] else []) ++
            (if (u.sensed k t missing n s).isPhantom k (u.event k t missing n s .south) then [Rail.south] else [])
        failing :=
          (if ((u.settled k t missing n s).track k t .north n).2 then [Rail.north] else []) ++
            (if (((u.settled k t missing n s).track k t .north n).1.track k t .south s).2 then [Rail.south] else []) } := by
  cases missing <;> rfl

/-- A scan takes up no window. -/
theorem ZoneUnit.scan_windows_length : (u.scan k t missing n s).unit.windows.length ≤ u.windows.length := by
  have offers (v : ZoneUnit) (r : Rail) (e : Option PresenceEvent) :
      (v.offer k r e).windows.length = v.windows.length := by cases e <;> simp [offer]
  have filled : (u.filled k t missing n s).windows.length = u.windows.length := by
    cases missing <;> simp [ZoneUnit.filled, gapped, accumulate, progress, applyGap]
  have offered : (u.offered k t missing n s).windows.length = u.windows.length := by
    simp only [ZoneUnit.offered, offers, sensed, detect_windows, filled]
  have confirmed : ((u.offered k t missing n s).confirm k).1.windows.length = u.windows.length := by
    simp [confirm, offered]
  rw [scan_eq]
  simp only [track_windows]
  exact (List.length_filter_le _ _).trans confirmed.le

/-- R82: a scan leaves a channel without a record alone. -/
theorem ZoneUnit.scan_channel_of_no_record {r : Rail} (absent : k.record r = none) :
    (u.scan k t missing n s).unit.channel r = u.channel r := by
  have gapped : (u.gapped k missing).channel r = u.channel r := by
    cases missing with
    | none => rfl
    | some m => exact (applyGap_channel u k r m.1 m.2).trans (if_pos absent)
  have filled : (u.filled k t missing n s).channel r = u.channel r := by simp [ZoneUnit.filled, gapped]
  have detects (v : ZoneUnit) (q : Rail) (a : Sample) : (v.detect k t q a).1.channel r = v.channel r := by
    by_cases same : r = q
    · subst same
      rw [detect_of_no_record v k t r absent]
    · exact detect_channel_of_ne v k t q r same a
  have tracks (v : ZoneUnit) (q : Rail) (a : Sample) : (v.track k t q a).1.channel r = v.channel r := by
    by_cases same : r = q
    · subst same
      rw [track_of_no_record v k t r absent]
    · exact track_channel_of_ne v k t q r same a
  rw [scan_eq]
  simp only [tracks, settled, deadline_channel, confirm_channel, offered, offer_channel, sensed, detects, filled]

end

/-! ## Prediction and removal at a unit -/

theorem ZoneUnit.place_windows (k : ZoneTables) (time : Scan) (w : Window) (u : ZoneUnit) :
    (u.place k time w).windows = if u.windows.length < windowCapacity then u.windows ++ [w] else u.windows := by
  unfold place
  split
  · split <;> simp
  · rfl

/-- R84 at a placed window: the partial block of an active channel goes where the covered span has begun. -/
theorem ZoneUnit.place_channel (k : ZoneTables) (time : Scan) (w : Window) (u : ZoneUnit) (r : Rail) :
    (u.place k time w).channel r =
      if u.windows.length < windowCapacity ∧ atOrBefore (w.inScan - BitVec.ofNat 32 k.tol) time = true ∧
          k.record r ≠ none then
        (u.channel r).dropBlock
      else u.channel r := by
  unfold place
  by_cases room : u.windows.length < windowCapacity
  · cases begun : atOrBefore (w.inScan - BitVec.ofNat 32 k.tol) time
    · simp only [room, if_true, true_and]
      cases r <;> rfl
    · simp only [room, if_true, true_and, forActive_channel]
      cases k.record r <;> cases r <;> simp [channel]
  · simp [room]

/-- A prediction places one window, DONE where it is decided at once. -/
theorem ZoneUnit.predict_fst (k : ZoneTables) (time : Scan) (nMin : Nat) (w : Window) (u : ZoneUnit) :
    (u.predict k time nMin w).1 =
      u.place k time
        (match predictionCondition time nMin k.tol u.windows w with
          | none => w
          | some c => w.decidedAs c) := by
  unfold predict
  split
  next decided => simp [decided]
  next open' => simp [open']

theorem ZoneUnit.withdraw_channel (j : Nat) (g : Option Nat) (u : ZoneUnit) (r : Rail) :
    (u.withdraw j g).channel r = u.channel r := by cases r <;> rfl

theorem ZoneUnit.empty_channel (u : ZoneUnit) (r : Rail) : u.empty.channel r = u.channel r := by cases r <;> rfl

theorem Calibration.zoneTables_record (c : Calibration) (z : Fin 4) (r : Rail) :
    (c.zoneTables z).record r = c.channels[channelOf z r] := by cases r <;> rfl

/-- R24 at a unit: the windows go, and an active channel loses its partial block and presence run. -/
theorem ZoneUnit.loseSync_channel (k : ZoneTables) (u : ZoneUnit) (r : Rail) :
    (u.loseSync k).channel r = if k.record r = none then u.channel r else (u.channel r).dropPartial := by
  unfold loseSync
  rw [forActive_channel, empty_channel]
  cases k.record r <;> rfl

@[simp] theorem ZoneUnit.loseSync_windows (k : ZoneTables) (u : ZoneUnit) : (u.loseSync k).windows = [] := by
  simp [loseSync, empty]

/-! ## A pass over the units -/

theorem setZone_get (z y : Fin 4) (u : ZoneUnit) (s : State) :
    (setZone z u s).zones[y] = if y = z then u else s.zones[y] := by
  simp only [setZone, Fin.getElem_fin, Vector.getElem_set, Fin.val_inj, eq_comm]

theorem setZone_self (z : Fin 4) (s : State) : setZone z s.zones[z] s = s := by
  simp [setZone]

theorem mapZones_get (f : Fin 4 → ZoneUnit → ZoneUnit) (s : State) (z : Fin 4) :
    (mapZones f s).zones[z] = f z s.zones[z] := by
  match z with
  | 0 => rfl
  | 1 => rfl
  | 2 => rfl
  | 3 => rfl

/-- One zone of a pass: its unit changes, and the estimates it gives are handed on. -/
def zonePass (g : Fin 4 → ZoneUnit → ZoneUnit × List Handed) (s : State) (z : Fin 4) : State :=
  handEstimates (g z s.zones[z]).2 (setZone z (g z s.zones[z]).1 s)

/-- What a pass over zones makes of the state `s`: units, records, counts. -/
structure Passed (g : Fin 4 → ZoneUnit → ZoneUnit × List Handed) (zs : List (Fin 4)) (s t : State) : Prop where
  frame :
    t = { s with
          zones := t.zones
          axles :=
            { s.axles with
              queue :=
                s.axles.queue.map
                  (AxleRecord.takeEstimates s.axles.lastOn (zs.flatMap fun z => (g z s.zones[z]).2)) }
          counters := t.counters, notices := t.notices }
  zones : ∀ z : Fin 4, t.zones[z] = if z ∈ zs then (g z s.zones[z]).1 else s.zones[z]
  counts : s.Counts t (Counter.ofEvent .zoneRejects (rejects (zs.flatMap fun z => (g z s.zones[z]).2))) []

theorem zonePass_passed (g : Fin 4 → ZoneUnit → ZoneUnit × List Handed) (z : Fin 4) (s : State) :
    Passed g [z] s (zonePass g s z) := by
  have eq := handEstimates_eq (g z s.zones[z]).2 (setZone z (g z s.zones[z]).1 s)
  have zones : (zonePass g s z).zones = (setZone z (g z s.zones[z]).1 s).zones := by
    unfold zonePass
    rw [eq]
  refine ⟨?_, fun y => ?_, ?_⟩
  · rw [List.flatMap_singleton, zones]
    exact eq
  · rw [zones, setZone_get]
    by_cases same : y = z
    · subst same
      simp
    · rw [if_neg same, if_neg (by simpa using same)]
  · rw [List.flatMap_singleton]
    exact (handEstimates_counts (g z s.zones[z]).2 (setZone z (g z s.zones[z]).1 s)).congr rfl rfl rfl rfl

/-- A pass over distinct zones reads each unit as it stood. -/
theorem zonePass_foldl (g : Fin 4 → ZoneUnit → ZoneUnit × List Handed) (zs : List (Fin 4)) (distinct : zs.Nodup)
    (s : State) : Passed g zs s (zs.foldl (zonePass g) s) := by
  induction zs generalizing s with
  | nil =>
    refine ⟨?_, fun z => by simp, (State.Counts.refl s).of_eq (by simp)⟩
    simp [show (AxleRecord.takeEstimates s.axles.lastOn []) = id from rfl]
  | cons z zs ih =>
    obtain ⟨fresh, distinct⟩ := List.nodup_cons.1 distinct
    have first := zonePass_passed g z s
    have rest := ih distinct (zonePass g s z)
    rw [List.foldl_cons]
    generalize zonePass g s z = m at first rest
    generalize zs.foldl (zonePass g) m = t at rest
    have reads : ∀ y : Fin 4, y ∈ zs → m.zones[y] = s.zones[y] := by
      intro y hy
      rw [first.zones, if_neg]
      simpa using fun e : y = z => fresh (e ▸ hy)
    have hands : (zs.flatMap fun y => (g y m.zones[y]).2) = zs.flatMap fun y => (g y s.zones[y]).2 := by
      rw [List.flatMap_def, List.flatMap_def, List.map_congr_left fun y hy => by rw [reads y hy]]
    refine ⟨?_, fun y => ?_, ?_⟩
    · have lastOn : m.axles.lastOn = s.axles.lastOn := by rw [first.frame]
      have queue : m.axles.queue = s.axles.queue.map (AxleRecord.takeEstimates s.axles.lastOn (g z s.zones[z]).2) := by
        rw [first.frame]
        simp
      rw [rest.frame, hands, lastOn, queue, first.frame]
      simp only [List.map_map, List.flatMap_cons]
      congr 3
      funext a
      exact (AxleRecord.takeEstimates_append _ _ _ a).symm
    · rw [rest.zones, first.zones]
      by_cases same : y = z
      · subst same
        simp [fresh]
      · by_cases later : y ∈ zs <;> simp [same, later]
    · have := first.counts.trans_ofEvent rest.counts
      rw [hands] at this
      simpa [rejects_append] using this

/-- A fold that takes each zone by a pass whose operation stands still is a pass. -/
theorem foldl_eq_zonePass {f : State → Fin 4 → State} {G : State → Fin 4 → ZoneUnit → ZoneUnit × List Handed}
    (pass : ∀ s z, f s z = zonePass (G s) s z) (stands : ∀ s z, G (zonePass (G s) s z) = G s) (zs : List (Fin 4))
    (s : State) : zs.foldl f s = zs.foldl (zonePass (G s)) s := by
  induction zs generalizing s with
  | nil => rfl
  | cons z zs ih => rw [List.foldl_cons, List.foldl_cons, pass, ih, stands]

/-- R99: every window of every zone cancelled. -/
theorem cancelWindows_passed (s : State) :
    Passed (fun z u => u.cancel z) [0, 1, 2, 3] s (cancelWindows s) :=
  zonePass_foldl (fun z u => u.cancel z) [0, 1, 2, 3] (by decide) s

/-- What zone z predicts for an entry, the tables, the direction and T being those of s (R90, R91). -/
def State.predictAt (j generation : Nat) (tRef : T16) (pace : Nat) (s : State) (z : Fin 4) (u : ZoneUnit) :
    ZoneUnit × List Handed :=
  match s.cal.geometry.bind fun g => (g.zones[z.val]?).map fun span => (g, span) with
  | some (g, span) =>
    u.predict (s.cal.zoneTables z) s.rx.time s.cal.limits.nMin
      (zoneWindow g s.direction s.cal.limits.trimEighths span j generation tRef pace)
  | none => (u, [])

theorem Calibration.zonesInUse_nodup (c : Calibration) : c.zonesInUse.Nodup := List.Nodup.filter _ (by decide)

theorem Calibration.mem_zonesInUse (c : Calibration) (z : Fin 4) : z ∈ c.zonesInUse ↔ z.val < c.zoneCount := by
  simp only [zonesInUse, List.mem_filter, decide_eq_true_eq, and_iff_right_iff_imp]
  exact fun _ => (by decide : ∀ z : Fin 4, z ∈ ([0, 1, 2, 3] : List (Fin 4))) z

/-- R70: one prediction per zone in use. -/
theorem predictWindows_passed (j generation : Nat) (tRef : T16) (pace : Nat) (s : State) :
    Passed (s.predictAt j generation tRef pace) s.cal.zonesInUse s (predictWindows j generation tRef pace s) := by
  have pass : ∀ s z, predictZone j generation tRef pace s z = zonePass (s.predictAt j generation tRef pace) s z := by
    intro s z
    unfold predictZone zonePass State.predictAt
    split
    next g span held => simp only [held]
    next absent =>
      simp only [absent, setZone_self]
      rfl
  have stands : ∀ s z,
      (zonePass (s.predictAt j generation tRef pace) s z).predictAt j generation tRef pace =
        s.predictAt j generation tRef pace := by
    intro s z
    have frame := (zonePass_passed (s.predictAt j generation tRef pace) z s).frame
    rw [frame]
    rfl
  unfold predictWindows
  rw [foldl_eq_zonePass pass stands]
  exact zonePass_foldl _ _ s.cal.zonesInUse_nodup s

end Sys2Proof.Machine
end

section
/-! The elementary acts that the operations of chapters 2 to 10 are made of, each with what it may rest on. An invariant
of the part is proved once per act; an operation is shown once to be a chain of acts. -/

namespace Sys2Proof.Machine

/-! ## What an act keeps of the thing it changes -/

/-- From c to d a statistics counter only counts (R177). -/
structure Counter.Grows (c d : Counter) : Prop where
  value : c.value ≤ counterMax → c.value ≤ d.value ∧ d.value ≤ counterMax
  overflow : c.overflow = true → d.overflow = true
  selection : d.selection = c.selection

/-- From c to d the train context is that of the same train, its end and its counts of R48 as they stood. -/
structure TrainContext.Continues (c d : TrainContext) : Prop where
  number : d.number = c.number
  direction : d.direction = c.direction
  startScan : d.startScan = c.startScan
  endReason : d.endReason = c.endReason
  endScan : d.endScan = c.endScan
  onSection : d.entries - d.backouts - d.exits + d.returns = c.entries - c.backouts - c.exits + c.returns

/-- An axle record holds none but axle flags, and an axle load that is the sum of its rail loads (R77, R111). -/
structure AxleRecord.Sound (a : AxleRecord) : Prop where
  flags : a.flags.toNat < 4096
  axleLoad : a.axleLoad = (a.north.bind fun n => a.south.map fun m => n + m)

/-- From u to v the unit of zone z takes up no window but in a RUNNING train and none beyond its capacity, and a channel
without a Channel Record keeps its state (R82, R89). -/
structure State.ZoneKept (s : State) (z : Fin 4) (u v : ZoneUnit) : Prop where
  windows : v.windows = [] ∨ u.windows ≠ [] ∨ s.train.state = .running
  length : v.windows.length ≤ u.windows.length ∨ v.windows.length ≤ windowCapacity
  channel : ∀ r, s.cal.channels[channelOf z r] = none → v.channel r = u.channel r

/-- From v to w a vehicle keeps its sequence number and does not begin to wait. -/
structure Vehicle.Keeps (v w : Vehicle) : Prop where
  sequence : w.sequence = v.sequence
  waiting : w.isWaiting = true → v.isWaiting = true

/-! ## The acts -/

/-- An elementary act of the part. -/
inductive Act (s : State) : State → Prop
  | cause (k : NoticeKind) (n : Nat) : Act s (raiseCause k n s)
  | count (f : Counter → Counter × Bool) (grows : ∀ c : Counter, c.Grows (f c).1) : Act s (updateCounters f s)
  | receive (r : Receiver) (silence : s.rx.silence = s.rx.synced → r.silence = r.synced) : Act s { s with rx := r }
  | enqueue (r : Request) (room : s.requests.length < requestCapacity) : Act s { s with requests := s.requests ++ [r] }
  | pairs (w e : PairUnit) : Act s { s with west := w, east := e }
  | pace (p : PaceTracker) : Act s { s with pace := p }
  | context (f : TrainContext → TrainContext) (continues : ∀ c : TrainContext, c.Continues (f c)) : Act s (modifyCtx f s)
  | ignored (n : Count32) : Act s { s with train := { s.train with ignoredBetween := n } }
  | quiet (x : Scan) (runs : s.train.state = .running ∨ s.train.state = .standing ∨ s.train.state = .ignoring) :
      Act s { s with train := { s.train with quiet := some x } }
  | run (x : Scan) (train : s.train.state = .running ∨ s.train.state = .standing) :
      Act s { s with train := { s.train with state := .running, quiet := some x } }
  | stand (x : Scan) (train : s.train.state = .running) (windows : ∀ z : Fin 4, s.zones[z].windows = []) :
      Act s { s with train := { s.train with state := .standing, quiet := some x } }
  | finish (reason : EndReason) (train : s.train.state = .running ∨ s.train.state = .standing) :
      Act s
        (emptyWindows
          { modifyCtx (fun c => { c with endReason := some reason, endScan := some s.rx.time }) s with
            train :=
              { (modifyCtx (fun c => { c with endReason := some reason, endScan := some s.rx.time }) s).train with
                state := .ending, quiet := none } })
  | ignore (x : Scan) (n : Count32) (train : s.train.state = .idle) :
      Act s { s with train := { s.train with state := .ignoring, quiet := some x, ignoredBetween := n } }
  | rest (train : s.train.state = .ignoring) : Act s { s with train := { s.train with state := .idle, quiet := none } }
  | dispose (again : Option Scan) (train : s.train.state = .ending) :
      Act s
        { s with
          consist := []
          train :=
            { s.train with
              ctx := none, quiet := again, state := if again.isSome then .ignoring else .idle } }
  | zones (zs : Vector ZoneUnit 4) (kept : ∀ z : Fin 4, s.ZoneKept z s.zones[z] zs[z]) : Act s { s with zones := zs }
  | enter (a : AxleRecord) (new : s.axles.highest < s.axles.lastOn + 1) (ordinals : s.axles.highest < maxOrdinal)
      (room : s.axles.queue.length < axleCapacity) (train : s.train.state = .running)
      (ordinal : a.ordinal = s.axles.highest + 1) (sound : a.Sound) :
      Act s
        { modifyCtx (fun c => { c with entries := c.entries + 1 }) s with
          axles :=
            { s.axles with
              highest := s.axles.highest + 1, lastOn := s.axles.highest + 1, queue := s.axles.queue ++ [a] } }
  | reEnter (held : s.axles.lastOn + 1 ≤ s.axles.highest) :
      Act s
        { modifyCtx (fun c => { c with entries := c.entries + 1 }) s with
          axles := { s.axles with lastOn := s.axles.lastOn + 1 } }
  | backOut (on : s.axles.firstOn ≤ s.axles.lastOn) :
      Act s
        { modifyCtx (fun c => { c with backouts := c.backouts + 1 }) s with
          axles := { s.axles with lastOn := s.axles.lastOn - 1 } }
  | exit (on : s.axles.firstOn ≤ s.axles.lastOn) :
      Act s
        { modifyCtx (fun c => { c with exits := c.exits + 1 }) s with
          axles := { s.axles with firstOn := s.axles.firstOn + 1 } }
  | comeBack (cleared : 1 < s.axles.firstOn) :
      Act s
        { modifyCtx (fun c => { c with returns := c.returns + 1 }) s with
          axles := { s.axles with firstOn := s.axles.firstOn - 1 } }
  | records (f : AxleRecord → AxleRecord) (ordinal : ∀ a, (f a).ordinal = a.ordinal)
      (sound : (∀ a ∈ s.axles.queue, a.Sound) → ∀ a ∈ s.axles.queue, (f a).Sound) :
      Act s { s with axles := { s.axles with queue := s.axles.queue.map f } }
  | discard (n : Nat) (train : s.train.state = .ending) :
      Act s
        { s with
          axles :=
            { s.axles with
              queue := s.axles.queue.filter fun a => decide (a.ordinal ≤ n)
              highest := min s.axles.highest (max n (s.axles.lowestHeld - 1)) } }
  | release (n : Nat) : Act s { s with axles := s.axles.release n }
  | vehicles (f : Vehicle → Vehicle) (keeps : ∀ v : Vehicle, v.Keeps (f v)) :
      Act s { s with asm := { s.asm with list := s.asm.list.map f } }
  | wait (q : Nat) (v : Vehicle) (held : s.asm.find q = some v) (unresolved : v.isWaiting = false) :
      Act s (beginWait q s)
  | form (v : Vehicle) (sequence : v.sequence = s.asm.nextSeq) (unresolved : v.isWaiting = false)
      (room : s.asm.list.length < vehicleCapacity) :
      Act s
        { s with
          asm :=
            { s.asm with
              list := s.asm.list ++ [v], nextSeq := s.asm.nextSeq + 1, firstFree := v.first + v.count } }
  | dissolve (k : Nat) (held : s.asm.list ≠ []) :
      Act s { s with asm := { s.asm with list := s.asm.list.dropLast, nextSeq := s.asm.nextSeq - 1, firstFree := k } }
  | shorten (l : List Vehicle) (part : l.Sublist s.asm.list) : Act s { s with asm := { s.asm with list := l } }
  | detail (d : AxleDetail) (room : s.link.details.length < detailCapacity) :
      Act s { s with link := { s.link with details := s.link.details ++ [d] } }
  | record (q : QueueRecord) (room : s.link.records.length < recordCapacity) : Act s (placeRecord q s)

/-- Acts that follow one another. -/
inductive Acts (s : State) : State → Prop
  | refl : Acts s s
  | tail {t u : State} (before : Acts s t) (last : Act t u) : Acts s u

theorem Act.acts {s t : State} (h : Act s t) : Acts s t := .tail .refl h

theorem Acts.trans {s t u : State} (h : Acts s t) (k : Acts t u) : Acts s u := by
  induction k with
  | refl => exact h
  | tail _ last ih => exact .tail ih last

/-- A property that every act keeps is kept by acts that follow one another. -/
theorem Acts.keep {P : State → Prop} (act : ∀ {s t}, Act s t → P s → P t) {s t : State} (h : Acts s t) (hs : P s) :
    P t := by
  induction h with
  | refl => exact hs
  | tail _ last ih => exact act last ih

theorem Acts.ite {s a b : State} {c : Prop} [Decidable c] (ha : c → Acts s a) (hb : ¬c → Acts s b) :
    Acts s (if c then a else b) := by
  split
  · exact ha ‹_›
  · exact hb ‹_›

/-- A fold of operations that are acts while `P` holds, and keep it. -/
theorem Acts.foldl {α : Type} {P : State → Prop} {f : State → α → State} (acts : ∀ s x, P s → Acts s (f s x))
    (keep : ∀ s x, P s → P (f s x)) (l : List α) (s : State) (hs : P s) : Acts s (l.foldl f s) := by
  induction l generalizing s with
  | nil => exact .refl
  | cons x l ih => exact (acts s x hs).trans (ih _ (keep s x hs))

end Sys2Proof.Machine
end

section
/-! Each operation of chapters 2 to 10 is a chain of elementary acts. -/

namespace Sys2Proof.Machine

/-! ## Counters and flags -/

theorem Counter.Grows.refl (c : Counter) : c.Grows c := ⟨fun fits => ⟨le_rfl, fits⟩, id, rfl⟩

/-- An addition counts (R177). -/
theorem Counter.grows_add (q : Nat) (c : Counter) : c.Grows (c.add q).1 := by
  obtain ⟨value, -, overflow, selection⟩ := c.add_spec q
  refine ⟨fun fits => ?_, fun full => ?_, selection⟩
  · rw [value]
    omega
  · rw [overflow, full, Bool.true_or]

theorem Counter.grows_occur (e : CounterEvent) (n : Nat) (c : Counter) : c.Grows (c.occur e n).1 := by
  unfold occur
  split
  · exact c.grows_add n
  · exact .refl c

theorem Counter.grows_inBand (v : Nat) (c : Counter) : c.Grows (c.inBand v).1 := by
  unfold inBand
  split
  · exact c.grows_add 1
  · exact .refl c

theorem Counter.Grows.with_previous {c d : Counter} (h : c.Grows d) (b : Bool) : c.Grows { d with previous := b } :=
  ⟨h.value, h.overflow, h.selection⟩

theorem Counter.grows_sample (q : Nat) (c : Counter) : c.Grows (c.sample q).1 := by
  unfold sample
  split
  · exact c.grows_add q
  · dsimp only
    split
    · exact (c.grows_add 1).with_previous _
    · exact (Grows.refl c).with_previous _

theorem or_lt_axleFlags {x y : AxleFlags} (hx : x.toNat < 4096) (hy : y.toNat < 4096) : (x ||| y).toNat < 4096 := by
  rw [BitVec.toNat_or]
  exact Nat.or_lt_two_pow (n := 12) hx hy

theorem AxleFlag.mask_lt (f : AxleFlag) : f.mask.toNat < 4096 := by cases f <;> decide

theorem axleFlagIf_lt (c : Bool) (f : AxleFlag) : (axleFlagIf c f).toNat < 4096 := by
  cases c
  · exact Nat.zero_lt_of_lt f.mask_lt
  · exact f.mask_lt

/-- A record with flags added, its loads as they stood. -/
theorem AxleRecord.Sound.of_flags {a b : AxleRecord} (h : a.Sound) (flags : b.flags.toNat < 4096)
    (axleLoad : b.axleLoad = a.axleLoad) (north : b.north = a.north) (south : b.south = a.south) : b.Sound :=
  ⟨flags, by rw [axleLoad, north, south, h.axleLoad]⟩

theorem AxleRecord.Sound.of_no_loads {a : AxleRecord} (flags : a.flags.toNat < 4096) (axleLoad : a.axleLoad = none)
    (north : a.north = none) : a.Sound := ⟨flags, by rw [axleLoad, north, Option.bind_none]⟩

theorem AxleRecord.Sound.takeEstimate {a : AxleRecord} (h : a.Sound) (n : Nat) (e : Handed) :
    (a.takeEstimate n e).Sound := by
  unfold AxleRecord.takeEstimate
  split
  · exact h.of_flags (or_lt_axleFlags (or_lt_axleFlags (or_lt_axleFlags h.flags (axleFlagIf_lt _ _)) (axleFlagIf_lt _ _))
      (axleFlagIf_lt _ _)) rfl rfl rfl
  · exact h

theorem AxleRecord.Sound.disturbed {a : AxleRecord} (h : a.Sound) :
    ({ a with flags := a.flags ||| AxleFlag.disturbed.mask } : AxleRecord).Sound :=
  h.of_flags (or_lt_axleFlags h.flags (AxleFlag.mask_lt _)) rfl rfl rfl

theorem axleLoadOf_eq_bind (n m : Option Nat) : axleLoadOf n m = n.bind fun n => m.map fun m => n + m := by
  cases n <;> cases m <;> rfl

/-- R111: the Load Combiner leaves a sound record. -/
theorem AxleRecord.Sound.combine {a : AxleRecord} (h : a.Sound) (l : Limits) (c : Option (Vector CurvePoint 8))
    (zones : List (Fin 4)) (p : Nat) : (a.combine l c zones p).Sound := by
  constructor
  · unfold AxleRecord.combine
    iterate 6 refine or_lt_axleFlags ?_ (axleFlagIf_lt _ _)
    exact h.flags
  · rw [AxleRecord.combine_eq]
    exact axleLoadOf_eq_bind _ _

theorem AxleRecord.Sound.finalize {a : AxleRecord} (h : a.Sound) (cal : Calibration) (p : Passage) :
    (a.finalize cal p).Sound := by
  have settled : AxleRecord.Sound
      (AxleRecord.settleTiming cal.channelsInUse { a with exitTime := some p.secondTime, exitPace := some p.ownPace }) :=
    h.of_flags h.flags rfl rfl rfl
  have combined := settled.combine cal.limits cal.curve cal.zonesInUse p.ownPace
  exact combined.of_flags (or_lt_axleFlags combined.flags (axleFlagIf_lt _ _)) rfl rfl rfl

theorem AxleRecord.finalize_ordinal (cal : Calibration) (p : Passage) (a : AxleRecord) :
    (a.finalize cal p).ordinal = a.ordinal := rfl

/-! ## Elementary operations -/

theorem countEvent_acts (e : CounterEvent) (n : Nat) (s : State) : Acts s (countEvent e n s) :=
  (Act.count _ (Counter.grows_occur e n)).acts

theorem countInBand_acts (v : Nat) (s : State) : Acts s (countInBand v s) := (Act.count _ (Counter.grows_inBand v)).acts

theorem sampleOccupancy_acts (s : State) : Acts s (sampleOccupancy s) := by
  refine (Act.count _ fun c => ?_).acts
  split
  · exact c.grows_sample _
  · exact c.grows_sample _
  · exact c.grows_sample _
  · exact .refl c

theorem raiseCause_acts (k : NoticeKind) (n : Nat) (s : State) : Acts s (raiseCause k n s) := (Act.cause k n).acts

theorem modifyCtx_acts {f : TrainContext → TrainContext} {s : State} (continues : ∀ c : TrainContext, c.Continues (f c)) :
    Acts s (modifyCtx f s) := (Act.context f continues).acts

theorem clearPairs_acts (s : State) : Acts s (clearPairs s) := (Act.pairs _ _).acts

theorem lockReset_acts (s : State) : Acts s (lockReset s) := (Act.pace _).acts

theorem takePace_acts (p : Passage) (s : State) : Acts s (takePace p s) := (Act.pace _).acts

theorem setPairUnit_acts (p : Pair) (u : PairUnit) (s : State) : Acts s (setPairUnit p u s) := by
  cases p
  · exact (Act.pairs u s.east).acts
  · exact (Act.pairs s.west u).acts

/-- An update of the record of an ordinal that keeps it sound. -/
theorem modifyAxle_acts {j : Nat} {f : AxleRecord → AxleRecord} {s : State}
    (ordinal : ∀ a, a.ordinal = j → (f a).ordinal = j)
    (sound : (∀ x ∈ s.axles.queue, x.Sound) → ∀ a, a.Sound → (f a).Sound) : Acts s (modifyAxle j f s) := by
  refine (Act.records (s := s) (fun a => if a.ordinal = j then f a else a) (fun a => ?_) fun all a mem => ?_).acts
  · split
    next same => rw [ordinal a same, same]
    · rfl
  · split
    · exact sound all a (all a mem)
    · exact all a mem

theorem modifyVehicle_acts {q : Nat} {f : Vehicle → Vehicle} (keeps : ∀ v : Vehicle, v.Keeps (f v)) (s : State) :
    Acts s (modifyVehicle q f s) := by
  refine (Act.vehicles (s := s) (fun v => if v.sequence = q then f v else v) fun v => ?_).acts
  split
  · exact keeps v
  · exact ⟨rfl, id⟩

theorem disturbSection_acts (s : State) : Acts s (disturbSection s) := by
  refine (Act.records (s := s) _ (fun a => ?_) fun all a mem => ?_).acts
  · split <;> rfl
  · split
    · exact (all a mem).disturbed
    · exact all a mem

theorem offerDetail_acts (d : AxleDetail) (s : State) : Acts s (offerDetail d s) :=
  .ite (fun room => (Act.detail d room).acts) fun _ =>
    modifyCtx_acts fun _ => ⟨rfl, rfl, rfl, rfl, rfl, rfl⟩

/-! ## Zone Units -/

/-- A unit that takes up no window. -/
theorem State.ZoneKept.of_length {s : State} {z : Fin 4} {u v : ZoneUnit} (length : v.windows.length ≤ u.windows.length)
    (channel : ∀ r, s.cal.channels[channelOf z r] = none → v.channel r = u.channel r) : s.ZoneKept z u v := by
  refine ⟨?_, .inl length, channel⟩
  by_cases none : u.windows = []
  · exact .inl (List.length_eq_zero_iff.1 (by simpa [none] using length))
  · exact .inr (.inl none)

theorem setZone_acts {z : Fin 4} {u : ZoneUnit} {s : State} (kept : s.ZoneKept z s.zones[z] u) :
    Acts s (setZone z u s) := by
  refine (Act.zones (s := s) (s.zones.set z u) fun y => ?_).acts
  have get : (s.zones.set z u)[y] = if y = z then u else s.zones[y] := setZone_get z y u s
  rw [get]
  by_cases same : y = z
  · subst same
    rwa [if_pos rfl]
  · rw [if_neg same]
    exact .of_length le_rfl fun _ _ => rfl

theorem mapZones_acts {f : Fin 4 → ZoneUnit → ZoneUnit} {s : State}
    (kept : ∀ z : Fin 4, s.ZoneKept z s.zones[z] (f z s.zones[z])) : Acts s (mapZones f s) := by
  refine (Act.zones (s := s) (mapZones f s).zones fun z => ?_).acts
  rw [mapZones_get]
  exact kept z

theorem handEstimate_acts (h : Handed) (s : State) : Acts s (handEstimate h s) := by
  unfold handEstimate
  refine (Acts.ite (fun _ => .refl) fun _ => countEvent_acts _ _ s).trans (modifyAxle_acts (fun a same => ?_) fun _ a => ?_)
  · rw [a.takeEstimate_ordinal, same]
  · exact fun sound => sound.takeEstimate _ h

theorem handEstimates_acts (hs : List Handed) (s : State) : Acts s (handEstimates hs s) :=
  .foldl (P := fun _ => True) (fun s h _ => handEstimate_acts h s) (fun _ _ => id) hs s trivial

theorem zonePass_acts {g : Fin 4 → ZoneUnit → ZoneUnit × List Handed} {s : State} {z : Fin 4}
    (kept : s.ZoneKept z s.zones[z] (g z s.zones[z]).1) : Acts s (zonePass g s z) :=
  (setZone_acts kept).trans (handEstimates_acts _ _)

theorem cancelWindows_acts (s : State) : Acts s (cancelWindows s) :=
  .foldl (P := fun _ => True) (f := zonePass fun z u => u.cancel z)
    (fun s z _ => zonePass_acts (.of_length (Nat.zero_le _) fun r _ => by cases r <;> rfl)) (fun _ _ => id) _ s trivial

/-- The prediction of one zone for an entry of a RUNNING train. -/
theorem predictZone_acts (j g : Nat) (t : T16) (p : Nat) (s : State) (z : Fin 4) (train : s.train.state = .running) :
    Acts s (predictZone j g t p s z) := by
  unfold predictZone
  split
  · refine (setZone_acts ⟨.inr (.inr train), ?_, fun r absent => ?_⟩).trans (handEstimates_acts _ _)
    · rw [ZoneUnit.predict_fst, ZoneUnit.place_windows]
      split
      next room => exact .inr (by simpa using room)
      · exact .inl le_rfl
    · rw [ZoneUnit.predict_fst, ZoneUnit.place_channel, if_neg]
      rw [Calibration.zoneTables_record]
      exact fun h => h.2.2 absent
  · exact .refl

theorem predictZone_train (j g : Nat) (t : T16) (p : Nat) (s : State) (z : Fin 4) :
    (predictZone j g t p s z).train = s.train := by
  unfold predictZone
  split
  · rw [handEstimates_eq]
    rfl
  · rfl

theorem predictWindows_acts (j g : Nat) (t : T16) (p : Nat) (s : State) (train : s.train.state = .running) :
    Acts s (predictWindows j g t p s) :=
  .foldl (P := fun s => s.train.state = .running) (fun s z => predictZone_acts j g t p s z)
    (fun s z running => by rw [predictZone_train, running]) _ s train

theorem phantom_acts (z : Fin 4) (r : Rail) (s : State) : Acts s (phantom z r s) :=
  (countEvent_acts _ _ s).trans (.ite (fun _ => raiseCause_acts _ _ _) fun _ => .refl)

theorem scanZone_acts (t : Scan) (m : Option (Scan × Scan)) (xs : List Sample) (s : State) (z : Fin 4) :
    Acts s (scanZone t m xs s z) := by
  unfold scanZone
  split
  · refine (((setZone_acts (.of_length (ZoneUnit.scan_windows_length ..) fun r absent => ?_)).trans
      (handEstimates_acts _ _)).trans
      (.foldl (P := fun _ => True) (fun s p _ => phantom_acts z p s) (fun _ _ => id) _ _ trivial)).trans
      (.foldl (P := fun _ => True) (fun s p _ => raiseCause_acts _ _ s) (fun _ _ => id) _ _ trivial)
    exact ZoneUnit.scan_channel_of_no_record _ _ _ _ _ _ (by rw [Calibration.zoneTables_record, absent])
  · exact .refl

theorem scanZones_acts (t : Scan) (m : Option (Scan × Scan)) (xs : List Sample) (s : State) :
    Acts s (scanZones t m xs s) :=
  .foldl (P := fun _ => True) (fun s z _ => scanZone_acts t m xs s z) (fun _ _ => id) _ s trivial

theorem sampleFaults_acts (xs : List Sample) (n : Nat) (s : State) : Acts s (sampleFaults n xs s) := by
  induction xs generalizing n s with
  | nil => exact .refl
  | cons x xs ih => exact (Acts.ite (fun _ => .refl) fun _ => raiseCause_acts _ _ s).trans (ih _ _)

/-- What an accepted scan hands over (R25, R26). -/
theorem handOver_acts (m : Option (Scan × Scan)) (xs : List Sample) (s : State) : Acts s (handOver m xs s) :=
  (sampleOccupancy_acts s).trans
    (.ite (fun _ => (sampleFaults_acts xs 0 _).trans (scanZones_acts _ m xs _)) fun _ => .refl)

theorem withdrawWindows_acts (j : Nat) (g : Option Nat) (s : State) : Acts s (withdrawWindows j g s) :=
  mapZones_acts fun _ => .of_length (List.length_filter_le _ _) fun r _ => ZoneUnit.withdraw_channel j g _ r

/-! ## Vehicle Assembler -/

theorem Vehicle.keeps_resolvePresent (e : ConsistEntry) (v : Vehicle) : v.Keeps (v.resolvePresent e) :=
  ⟨rfl, fun waits => absurd waits (by simp [isWaiting, resolvePresent])⟩

theorem Vehicle.keeps_resolveAbsent (f : VehicleFlag) (v : Vehicle) : v.Keeps (v.resolveAbsent f) :=
  ⟨rfl, fun waits => absurd waits (by simp [isWaiting, resolveAbsent])⟩

theorem Vehicle.keeps_resolveFrom (l : List ConsistEntry) (f : VehicleFlag) (v : Vehicle) :
    v.Keeps (v.resolveFrom l f) := by
  unfold resolveFrom
  split
  · exact v.keeps_resolvePresent _
  · exact v.keeps_resolveAbsent f

theorem Vehicle.keeps_revert (v : Vehicle) : v.Keeps v.revert := by
  refine ⟨rfl, fun waits => ?_⟩
  cases h : v.resolution <;> simp [isWaiting, revert, h] at waits

theorem resolveAtCompletion_acts (q : Nat) (s : State) : Acts s (resolveAtCompletion q s) := by
  unfold resolveAtCompletion
  split
  · exact .refl
  next v held =>
    split
    next unresolved =>
      refine .ite (fun _ => modifyVehicle_acts (Vehicle.keeps_resolveFrom _ _) s) fun _ => ?_
      split
      · exact modifyVehicle_acts (Vehicle.keeps_resolvePresent _) s
      · exact .ite (fun _ => modifyVehicle_acts (Vehicle.keeps_resolveAbsent _) s) fun _ =>
          (Act.wait q v held (by simp [Vehicle.isWaiting, unresolved])).acts
    · exact .refl

theorem completeVehicle_acts (q : Nat) (s : State) : Acts s (completeVehicle q s) := by
  refine (modifyVehicle_acts ?_ s).trans (resolveAtCompletion_acts q _)
  exact fun v => ⟨rfl, id⟩

theorem reportClearance_acts (j : Nat) (s : State) : Acts s (reportClearance j s) := by
  unfold reportClearance
  split
  · exact completeVehicle_acts _ s
  · exact .refl

/-- The vehicle that can be formed has the next sequence number, waits for nothing, and has room (R133). -/
theorem formable_eq_some {s : State} {v : Vehicle} (h : s.formable = some v) :
    v.sequence = s.asm.nextSeq ∧ v.first = s.asm.firstFree ∧ v.state = .formed ∧ v.resolution = .unresolved ∧
      s.asm.list.length < vehicleCapacity ∧ s.mayForm = true ∧ s.axles.entered s.asm.firstFree = true := by
  unfold State.formable at h
  dsimp only at h
  split at h
  next may =>
    simp only [Bool.and_eq_true, decide_eq_true_eq] at may
    obtain ⟨⟨may, entered⟩, room⟩ := may
    split at h
    · cases h
    · cases h
      exact ⟨rfl, rfl, rfl, rfl, room, may, entered⟩
    · obtain ⟨r, -, rfl⟩ := Option.map_eq_some_iff.1 h
      exact ⟨rfl, rfl, rfl, rfl, room, may, entered⟩
  · cases h

theorem AxleTracker.assign_acts (v : Vehicle) (q : Option Nat) (s : State) :
    Acts s { s with axles := s.axles.assign v q } := by
  refine (Act.records (s := s) _ (fun a => ?_) fun all a mem => ?_).acts
  · split <;> rfl
  · split
    · exact (all a mem).of_flags (all a mem).flags rfl rfl rfl
    · exact all a mem

theorem formVehicle_acts {v : Vehicle} {s : State} (h : s.formable = some v) : Acts s (formVehicle v s) := by
  obtain ⟨sequence, -, -, unresolved, room, -⟩ := formable_eq_some h
  have formed := (Act.form v sequence (by simp [Vehicle.isWaiting, unresolved]) room).acts.trans
    (AxleTracker.assign_acts v (some v.sequence) _)
  exact .ite (fun _ => formed.trans (completeVehicle_acts _ _)) fun _ => formed

theorem considerFrom_acts (n : Nat) (s : State) : Acts s (considerFrom n s) := by
  induction n generalizing s with
  | zero => exact .refl
  | succ n ih =>
    unfold considerFrom
    split
    next v formable => exact (formVehicle_acts formable).trans (ih _)
    · exact .refl

theorem considerFormation_acts (s : State) : Acts s (considerFormation s) := considerFrom_acts _ s

theorem dissolveVehicle_acts (j : Nat) (s : State) : Acts s (dissolveVehicle j s) := by
  unfold dissolveVehicle
  split
  next v last =>
    refine .ite (fun _ => ?_) fun _ => .refl
    exact (Act.dissolve v.first (fun none => by simp [none] at last)).acts.trans (AxleTracker.assign_acts v none _)
  · exact .refl

theorem revertVehicle_acts (q : Nat) (s : State) : Acts s (revertVehicle q s) := by
  refine modifyVehicle_acts (fun v => ?_) s
  split
  · exact v.keeps_revert
  · exact ⟨rfl, id⟩

theorem resolveWaiting_acts (s : State) : Acts s (resolveWaiting s) := by
  refine (Act.vehicles _ fun v => ?_).acts
  split
  · exact v.keeps_resolveFrom _ _
  · exact ⟨rfl, id⟩

/-! ## The end of a train -/

theorem discardAbove_acts (n : Nat) {s : State} (ending : s.train.state = .ending) : Acts s (discardAbove n s) := by
  refine (Act.discard n ending).acts.trans (modifyCtx_acts ?_)
  exact fun _ => ⟨rfl, rfl, rfl, rfl, rfl, rfl⟩

theorem flushAbort_acts {s : State} (ending : s.train.state = .ending) : Acts s (flushAbort s) := by
  refine (discardAbove_acts s.keptUpTo ending).trans (Acts.trans (Act.shorten _ List.filter_sublist).acts (modifyCtx_acts ?_))
  exact fun _ => ⟨rfl, rfl, rfl, rfl, rfl, rfl⟩

theorem flushQuiet_acts {s : State} (ending : s.train.state = .ending) : Acts s (flushQuiet s) :=
  (discardAbove_acts _ ending).trans (considerFormation_acts _)

/-- The entry into ENDING of a RUNNING or STANDING train (R59). -/
theorem enterEnding_acts (reason : EndReason) {s : State} (train : s.train.state = .running ∨ s.train.state = .standing) :
    Acts s (enterEnding reason s) := by
  unfold enterEnding
  extract_lets s1 tr s2 s3
  have ended : Acts s s3 :=
    ((Act.finish reason train).acts.trans (clearPairs_acts _)).trans (resolveWaiting_acts (emptyWindows (clearPairs s2)))
  exact ended.trans (.ite (fun _ => flushQuiet_acts rfl) fun _ => flushAbort_acts rfl)

theorem abortWith_acts (reason : EndReason) {s : State} (train : s.train.state = .running ∨ s.train.state = .standing) :
    Acts s (abortWith reason s) := (raiseCause_acts _ _ s).trans (enterEnding_acts reason train)

/-! ## Motion -/

theorem motion_acts (s : State) : Acts s (motion s) := by
  refine (((modifyCtx_acts ?_).trans (lockReset_acts _)).trans (cancelWindows_acts _)).trans (disturbSection_acts _)
  exact fun _ => ⟨rfl, rfl, rfl, rfl, rfl, rfl⟩

theorem reverseMotion_acts (s : State) : Acts s (reverseMotion s) := by
  refine (modifyCtx_acts ?_).trans (motion_acts _)
  exact fun _ => ⟨rfl, rfl, rfl, rfl, rfl, rfl⟩

/-- The state whose windows a motion cancels. -/
def beforeCancel (s : State) : State := lockReset (modifyCtx (fun c => { c with epoch := c.epoch + 1 }) s)

theorem motion_def (s : State) : motion s = disturbSection (cancelWindows (beforeCancel s)) := rfl

/-- What a motion makes of the state apart from its records, registers and counters (R54, R56). -/
theorem motion_eq (s : State) :
    motion s =
      { s with
        pace := PaceTracker.reset
        train := (modifyCtx (fun c => { c with epoch := c.epoch + 1 }) s).train
        zones := (motion s).zones
        axles := { s.axles with queue := (motion s).axles.queue }
        counters := (motion s).counters, notices := (motion s).notices } := by
  have frame := (cancelWindows_passed (beforeCancel s)).frame
  rw [motion_def]
  generalize cancelWindows (beforeCancel s) = m at frame
  rw [frame]
  rfl

theorem cancelWindows_get (s : State) (z : Fin 4) : (cancelWindows s).zones[z] = { s.zones[z] with windows := [] } := by
  rw [(cancelWindows_passed s).zones z, if_pos]
  · rfl
  · revert z
    decide

theorem motion_get (s : State) (z : Fin 4) : (motion s).zones[z] = { s.zones[z] with windows := [] } := by
  have zones : (motion s).zones = (cancelWindows (beforeCancel s)).zones := by
    rw [motion_def]
    generalize cancelWindows (beforeCancel s) = m
    rfl
  rw [zones, cancelWindows_get]
  rfl

theorem motion_state (s : State) : (motion s).train.state = s.train.state := by
  rw [motion_eq]
  rfl

theorem standstill_acts {s : State} (running : s.train.state = .running) : Acts s (standstill s) := by
  have moved : Acts s (motion (modifyCtx (fun c => { c with stood := true }) s)) := by
    refine (modifyCtx_acts ?_).trans (motion_acts _)
    exact fun _ => ⟨rfl, rfl, rfl, rfl, rfl, rfl⟩
  have state := motion_state (modifyCtx (fun c => { c with stood := true }) s)
  have windows (z : Fin 4) : (motion (modifyCtx (fun c => { c with stood := true }) s)).zones[z].windows = [] := by
    rw [motion_get]
  unfold standstill
  generalize motion (modifyCtx (fun c => { c with stood := true }) s) = m at moved state windows
  exact .tail moved (.stand _ (state.trans running) windows)

/-! ## Entries, backouts, exits and returns -/

/-- A record of an ordinal that just entered is handed on while the train is RUNNING. -/
theorem handOn_acts (j : Nat) (p : Passage) {s : State} (running : s.train.state = .running) : Acts s (handOn j p s) := by
  unfold handOn
  extract_lets s1 s2
  have reported : Acts s s2 := by
    refine (takePace_acts p s).trans (modifyAxle_acts (fun _ same => same) fun _ a sound => ?_)
    exact sound.of_flags (or_lt_axleFlags sound.flags (axleFlagIf_lt _ _)) rfl rfl rfl
  split
  · exact reported.trans (predictWindows_acts _ _ _ _ _ running)
  · exact reported

theorem enterNew_acts (p : Passage) {s : State} (new : s.axles.highest < s.axles.lastOn + 1)
    (ordinals : s.axles.highest < maxOrdinal) (room : s.axles.queue.length < axleCapacity)
    (running : s.train.state = .running) :
    Acts s (enterNew p (modifyCtx (fun c => { c with entries := c.entries + 1 }) s)) := by
  refine (Acts.trans (Act.enter _ new ordinals room running ?ordinal ?sound).acts (handOn_acts _ p ?running)).trans
    (considerFormation_acts _)
  case running => exact running
  case ordinal => rfl
  case sound => exact .of_no_loads (by decide : (0 : AxleFlags).toNat < 4096) rfl rfl

theorem AxleRecord.Sound.refresh (p : Passage) (epoch : Count32) (spacing : Option Nat) (a : AxleRecord) :
    (a.refresh p epoch spacing).Sound := .of_no_loads (AxleFlag.mask_lt _) rfl rfl

theorem reEnter_acts (p : Passage) {s : State} (held : s.axles.lastOn + 1 ≤ s.axles.highest)
    (running : s.train.state = .running) :
    Acts s (reEnter p (modifyCtx (fun c => { c with entries := c.entries + 1 }) s)) := by
  unfold reEnter
  extract_lets j sp e x s1
  have entered : Acts s s1 := (Act.reEnter held).acts
  refine Acts.trans ?_ (considerFormation_acts _)
  split
  · refine (entered.trans (modifyAxle_acts ?ordinal ?sound)).trans (handOn_acts _ p running)
    case ordinal => exact fun _ same => same
    case sound => exact fun _ a _ => .refresh p e sp a
  · exact entered.trans (takePace_acts p _)

theorem carryEntry_acts (p : Passage) {s : State} (running : s.train.state = .running) : Acts s (carryEntry p s) := by
  unfold carryEntry
  refine .ite (fun new => .ite (fun _ => ?_) fun ordinals => .ite (fun _ => ?_) fun room => ?_) fun old => ?_
  · exact abortWith_acts _ (.inl running)
  · exact abortWith_acts _ (.inl running)
  · exact enterNew_acts p new (by omega) (by omega) running
  · exact reEnter_acts p (by omega) running

theorem unexpected_acts (p : Passage) (s : State) : Acts s (unexpected p s) := by
  refine (modifyCtx_acts ?_).trans (raiseCause_acts _ _ _)
  exact fun _ => ⟨rfl, rfl, rfl, rfl, rfl, rfl⟩

theorem backOut_acts {s : State} (on : s.axles.firstOn ≤ s.axles.lastOn) : Acts s (backOut s) := by
  unfold backOut
  extract_lets j s1 x s2 s3
  have out : Acts s s2 := (Act.backOut on).acts
  refine ((out.trans (modifyAxle_acts ?ordinal ?sound)).trans (withdrawWindows_acts _ _ _)).trans
    ((dissolveVehicle_acts _ _).trans (considerFormation_acts _))
  case ordinal => exact fun _ same => same
  case sound => exact fun _ a sound => sound.of_flags sound.flags rfl rfl rfl

/-- The finalization of a record that the queue holds (R74). -/
theorem finalizeAxle_acts {a : AxleRecord} (p : Passage) {s : State} (held : a ∈ s.axles.queue) :
    Acts s (finalizeAxle a p s) := by
  unfold finalizeAxle
  extract_lets b s1 s2 s3 s4 s5
  have withdrawn : Acts s s2 := (withdrawWindows_acts _ _ s).trans (countEvent_acts _ _ _)
  have written : Acts s s3 := by
    refine withdrawn.trans (modifyAxle_acts (fun _ _ => rfl) fun all _ _ => ?_)
    exact (all a held).finalize s.cal p
  have counted : Acts s s5 :=
    (written.trans (.ite (fun _ => countEvent_acts _ _ _) fun _ => .refl)).trans (countInBand_acts _ _)
  exact counted.trans (.ite (fun _ => offerDetail_acts _ _) fun _ => .refl)

theorem AxleTracker.mem_of_find {x : AxleTracker} {j : Nat} {a : AxleRecord} (h : x.find j = some a) : a ∈ x.queue :=
  List.mem_of_find?_eq_some h

theorem AxleTracker.ordinal_of_find {x : AxleTracker} {j : Nat} {a : AxleRecord} (h : x.find j = some a) :
    a.ordinal = j := by simpa using List.find?_some h

theorem exitAxle_acts (p : Passage) {s : State} (on : s.axles.firstOn ≤ s.axles.lastOn) : Acts s (exitAxle p s) := by
  unfold exitAxle
  extract_lets j s1 x s2
  have out : Acts s s2 := (Act.exit on).acts
  split
  next a held =>
    refine (out.trans (.ite (fun _ => .refl) fun _ => ?_)).trans (reportClearance_acts _ _)
    exact finalizeAxle_acts p (AxleTracker.mem_of_find held)
  · exact out

theorem returnAxle_acts {s : State} (cleared : 1 < s.axles.firstOn) : Acts s (returnAxle s) := by
  unfold returnAxle
  extract_lets j s1 x s2 s3
  have back : Acts s s2 := (Act.comeBack cleared).acts
  have disturbed : Acts s s3 := back.trans (modifyAxle_acts (fun _ same => same) fun _ a sound => sound.disturbed)
  split
  · split
    · exact disturbed.trans (revertVehicle_acts _ _)
    · exact disturbed
  · exact back.trans (modifyCtx_acts fun _ => ⟨rfl, rfl, rfl, rfl, rfl, rfl⟩)

/-! ## Passages and wheel events -/

/-- The motion effects of a reverse passage leave the ordinal bounds alone. -/
theorem reverseMotion_eq (s : State) :
    reverseMotion s =
      { s with
        pace := PaceTracker.reset
        train := (modifyCtx (fun c => { c with disturbed := true, epoch := c.epoch + 1 }) s).train
        zones := (reverseMotion s).zones
        axles := { s.axles with queue := (reverseMotion s).axles.queue }
        counters := (reverseMotion s).counters, notices := (reverseMotion s).notices } := by
  have eq := motion_eq (modifyCtx (fun c => { c with disturbed := true }) s)
  unfold reverseMotion
  generalize motion (modifyCtx (fun c => { c with disturbed := true }) s) = m at eq
  rw [eq]
  simp only [modifyCtx, Option.map_map]
  rfl

theorem reverseMotion_firstOn (s : State) : (reverseMotion s).axles.firstOn = s.axles.firstOn := by
  rw [reverseMotion_eq]

theorem reverseMotion_lastOn (s : State) : (reverseMotion s).axles.lastOn = s.axles.lastOn := by
  rw [reverseMotion_eq]

/-- A passage classified in a RUNNING train (R52). -/
theorem classify_acts (p : Passage) {s : State} (running : s.train.state = .running) : Acts s (classify p s) := by
  unfold classify
  extract_lets d m
  have moved : Acts s m := reverseMotion_acts s
  refine .ite (fun _ => .ite (fun _ => ?_) fun _ => .ite (fun on => ?_) fun _ => ?_) fun _ =>
    .ite (fun _ => .ite (fun on => ?_) fun _ => ?_) fun _ => .ite (fun cleared => ?_) fun _ => ?_
  · exact carryEntry_acts p running
  · exact exitAxle_acts p (by simpa [AxleTracker.onSection] using on)
  · exact unexpected_acts p s
  · refine moved.trans (backOut_acts ?_)
    rw [reverseMotion_firstOn, reverseMotion_lastOn]
    simpa [AxleTracker.onSection] using on
  · exact moved.trans (unexpected_acts p _)
  · exact moved.trans (returnAxle_acts (by rwa [reverseMotion_firstOn]))
  · exact moved.trans (unexpected_acts p _)

/-- What a command does before its frame boundary where it may start a train: acts, or acts, a train start in IDLE on a
READY part, and acts (R50, R51). -/
def Begins (s t : State) : Prop :=
  Acts s t ∨
    ∃ (m : State) (d : Direction),
      Acts s m ∧ m.train = s.train ∧ m.rx = s.rx ∧ m.part = s.part ∧ m.train.state = .idle ∧ m.part = .ready ∧
        Acts (startTrain d m) t

theorem takePassage_begins (p : Passage) (s : State) :
    Acts s (takePassage p s) ∨
      ∃ d, s.train.state = .idle ∧ s.part = .ready ∧ Acts (startTrain d s) (takePassage p s) := by
  have inTrain (train : s.train.state = .running ∨ s.train.state = .standing) : Acts s (passageInTrain p s) :=
    (Act.run _ train).acts.trans
      (classify_acts p (s := startQuiet { s with train := { s.train with state := .running } }) rfl)
  unfold takePassage
  split
  next idle =>
    unfold passageInIdle
    split
    next d _ =>
      by_cases ready : s.part = .ready
      · rw [if_pos ready]
        exact .inr ⟨d, idle, ready, classify_acts p rfl⟩
      · rw [if_neg ready]
        exact .inl ((Act.ignore _ _ idle).acts.trans (raiseCause_acts _ _ _))
    · exact .inl (raiseCause_acts _ _ s)
  next running => exact .inl (inTrain (.inl running))
  next standing => exact .inl (inTrain (.inr standing))
  next ending =>
    refine .inl ((modifyCtx_acts ?_).trans (raiseCause_acts _ _ _))
    exact fun _ => ⟨rfl, rfl, rfl, rfl, rfl, rfl⟩
  next ignoring =>
    exact .inl (.tail (Act.ignored (s.train.ignoredBetween + 1)).acts (.quiet _ (.inr (.inr ignoring))))

theorem takeEvent_begins (x : Detector) (t : T16) (s : State) : Begins s (takeEvent x t s) := by
  unfold takeEvent
  extract_lets r s1 s2
  have taken : Acts s s2 := (setPairUnit_acts _ _ s).trans (.ite (fun _ => raiseCause_acts _ _ _) fun _ => .refl)
  have same : s2.train = s.train ∧ s2.rx = s.rx ∧ s2.part = s.part := by
    simp only [s2, s1]
    split <;> simp
  split
  · rcases takePassage_begins (makePassage s2.cal.geometry _ _ x t) s2 with acts | ⟨d, idle, ready, acts⟩
    · exact .inl (taken.trans acts)
    · exact .inr ⟨s2, d, taken, same.1, same.2.1, same.2.2, idle, ready, acts⟩
  · exact .inl taken

theorem quietExpiry_acts (s : State) : Acts s (quietExpiry s) := by
  unfold quietExpiry
  split
  next running =>
    exact .ite (fun _ => standstill_acts running) fun _ => enterEnding_acts _ (.inl running)
  next standing => exact (Act.quiet _ (.inr (.inl standing))).acts
  next ignoring => exact (Act.rest ignoring).acts.trans (clearPairs_acts _)
  · exact .refl
  · exact .refl

/-! ## Frames -/

theorem rejectFrame_acts (reason : Nat) (s : State) : Acts s (rejectFrame reason s) :=
  (raiseCause_acts _ _ s).trans (countEvent_acts _ _ _)

theorem loseSync_acts (s : State) : Acts s (loseSync s) := by
  refine (((Act.receive { s.rx with synced := false, silence := false } fun _ => rfl).acts.trans (Act.pairs PairUnit.reset PairUnit.reset).acts).trans
    (mapZones_acts fun z => .of_length ?_ fun r absent => ?_)).trans (.ite (fun train => ?_) fun _ => .refl)
  · split <;> simp [ZoneUnit.empty]
  · split
    · rw [ZoneUnit.loseSync_channel, if_pos (by rw [Calibration.zoneTables_record]; exact absent)]
    · exact ZoneUnit.empty_channel _ r
  · exact abortWith_acts _ train

theorem takeScan_acts (number : Word16) (xs : List Sample) (s : State) : Acts s (takeScan number xs s) := by
  have sync (s : State) : Acts s (synchronizeScan number xs s) :=
    (Act.receive _ fun _ => rfl).acts.trans (handOver_acts _ _ _)
  unfold takeScan
  refine .ite (fun synced => ?_) fun _ => sync s
  extract_lets d
  refine .ite (fun _ => rejectFrame_acts _ s) fun _ => .ite (fun _ => ?_) fun _ => .ite (fun _ => ?_) fun _ =>
    .ite (fun _ => ?_) fun _ => rejectFrame_acts _ s
  · exact (Act.receive _ fun _ => synced.symm).acts.trans (handOver_acts _ _ _)
  · unfold gapScan
    extract_lets t s1
    have told : Acts s s1 := (raiseCause_acts _ _ s).trans (countEvent_acts _ _ _)
    exact told.trans ((Act.receive (s := s1) (s.rx.advance (t + BitVec.ofNat 32 d) number) fun _ => synced.symm).acts.trans
      (handOver_acts _ _ _))
  · exact ((loseSync_acts s).trans (raiseCause_acts _ _ _)).trans (sync _)

theorem takeRequest_acts (r : Request) (s : State) : Acts s (takeRequest r s) :=
  .ite (fun room => (Act.enqueue r room).acts) fun _ => raiseCause_acts _ _ s

theorem routeFrame_begins (f : Inbound) (s : State) : Begins s (routeFrame f s) := by
  cases f with
  | scan number xs => exact .inl (takeScan_acts number xs s)
  | wheel x number fraction =>
    unfold routeFrame takeWheel
    dsimp only
    split
    · exact takeEvent_begins x _ s
    · exact .inl (raiseCause_acts _ _ s)
  | request r => exact .inl (takeRequest_acts r s)

/-! ## Release and summary -/

theorem releasable_eq_some {s : State} {v : Vehicle} {t : VehicleTotals} (h : s.releasable = some (v, t)) :
    s.asm.list.head? = some v ∧ v.state = .complete t ∧ v.isResolved = true ∧
      s.link.records.length < recordCapacity := by
  unfold State.releasable at h
  split at h
  · cases h
  next y list held =>
    split at h
    next x complete =>
      split at h
      next ready =>
        cases h
        simp only [Bool.and_eq_true, decide_eq_true_eq] at ready
        exact ⟨by simp [held], complete, ready.1, ready.2⟩
      · cases h
    · cases h

theorem releaseVehicle_acts {v : Vehicle} {t : VehicleTotals} {s : State} (h : s.releasable = some (v, t)) :
    Acts s (releaseVehicle v t s) := by
  obtain ⟨-, -, -, room⟩ := releasable_eq_some h
  have left : Acts s (dropHead { placeRecord (.vehicle (vehicleRecord ((s.train.ctx.map TrainContext.number).getD 0)
      s.axles v t)) s with axles := s.axles.release v.last }) :=
    .tail (.tail (.tail .refl (.record _ room)) (.release v.last)) (.shorten _ (List.tail_sublist _))
  refine ((Acts.trans (left.trans (modifyCtx_acts ?_)) (countEvent_acts _ _ _)).trans
    (.ite (fun _ => countEvent_acts _ _ _) fun _ => .refl)).trans (considerFormation_acts _)
  exact fun _ => ⟨rfl, rfl, rfl, rfl, rfl, rfl⟩

theorem summaryDue_eq_some {s : State} {c : TrainContext} (h : s.summaryDue = some c) :
    s.train.state = .ending ∧ s.asm.list = [] ∧ s.link.records.length < recordCapacity ∧ s.train.ctx = some c := by
  unfold State.summaryDue at h
  split at h
  next due => exact ⟨due.1, due.2.1, due.2.2, h⟩
  · cases h

theorem placeSummary_acts {c : TrainContext} {s : State} (h : s.summaryDue = some c) : Acts s (placeSummary c s) := by
  obtain ⟨ending, -, room, -⟩ := summaryDue_eq_some h
  unfold placeSummary
  extract_lets c' s1 x s2
  have placed : Acts s s1 := (Act.record _ room).acts
  refine .ite (fun _ => ?_) fun _ => ?_
  · exact (placed.trans (Act.dispose (s := s1) (some _) ending).acts).trans (clearPairs_acts _)
  · exact (placed.trans (Act.dispose (s := s1) none ending).acts).trans (clearPairs_acts _)

end Sys2Proof.Machine
end

section
/-! What the execution of a request and of a command can do: one case per kind of effect (chapters 8 to 12,
95_what_each_step_holds). -/

namespace Sys2Proof.Machine

/-! ## A request executed -/

/-- Metrological tables replaced: CAL_PENDING set and readiness evaluated (R10, R11, R119). -/
def changeTables (f : Calibration → Calibration) (s : State) : State :=
  evaluateReadiness { s with cal := { f s.cal with calPending := true } }

theorem acceptWrite_eq (r : Request) (f : Calibration → Calibration) (s : State) :
    acceptWrite r f s = answer r .ok [] (changeTables f s) := rfl

/-- What the execution of request r makes of the state before the answer, the request taken from the buffer (R167). -/
inductive Changed (r : Request) (s : State) : State → Prop
  /-- A refusal or a reading. -/
  | nothing : Changed r s s
  | cleared : Changed r s { s with notices := s.notices.cleared }
  | levelled (i : Fin 16) (level : Nat) (low : level ≤ 7) :
      Changed r s { s with notices := s.notices.writeLevel i level }
  | geometry (code : r.code = codeWriteGeometry) (admitted : s.protection = none) (g : GeometryRecord)
      (passes : geometryFault s.cal.limits.minZones g = none) :
      Changed r s (changeTables (fun c => { c with geometry := some g }) s)
  | channel (code : r.code = codeWriteChannel) (admitted : s.protection = none) (ch : Fin 8) (rec : ChannelRecord)
      (passes : channelFault rec = none) :
      Changed r s (changeTables (fun c => { c with channels := c.channels.set ch (some rec) }) (reloadChannel ch rec s))
  | curve (code : r.code = codeWriteSpeedCurve) (admitted : s.protection = none) (k : Vector CurvePoint 8)
      (passes : curveFault k = none) : Changed r s (changeTables (fun c => { c with curve := some k }) s)
  | limits (code : r.code = codeWriteLimits) (admitted : s.protection = none) (l : Limits)
      (passes : limitsFault s.cal.maxMinZones l = none) :
      Changed r s (changeTables (fun c => { c with limits := l, origin := .written }) s)
  | storeFault : Changed r s (raiseCause .storeFault faultCommit s)
  | settings (x : Settings) : Changed r s { s with settings := x }
  | type (i : Fin 32) (t : Option VehicleType) : Changed r s (setType i t s)
  | appended (e : ConsistEntry) (room : s.consist.length < consistCapacity) {m : State}
      (acts : Acts { s with consist := s.consist ++ [e] } m) (rx : m.rx = s.rx) : Changed r s m
  | emptied : Changed r s { s with consist := [] }
  | selected (code : r.code = codeWriteCounter) (i : Fin 4) (x : Selection) :
      Changed r s { s with counters := s.counters.set i { Counter.reset with selection := x } }
  | zeroed (code : r.code = codeResetCounters) : Changed r s (zeroCounters s)
  | aborted (train : s.train.state = .running ∨ s.train.state = .standing) : Changed r s (abortWith .request s)
  | restarted (code : r.code = codeRestart) (free : s.cal.committing = none) : Changed r s (restartBlocks s)

/-- What the execution of request r makes of the state: a change and its answer, or an accepted commit (R121, R167). -/
inductive Served (r : Request) (s : State) : State → Prop
  | answered {m : State} (change : Changed r s m) (st : Status) (payload : List Byte) : Served r s (answer r st payload m)
  | committed (admitted : s.protection = none) (room : s.cal.counter < 65535) (g : GeometryRecord)
      (k : Vector CurvePoint 8) : Served r s (acceptCommit r.tag g k s)

/-- What the protection admits (R118). -/
theorem protection_eq_none (s : State) :
    s.protection = none ↔ s.calEn = true ∧ s.busyTrain = false ∧ s.cal.committing = none := by
  unfold State.protection
  cases s.calEn <;> cases s.busyTrain <;> cases s.cal.committing <;> simp

section
variable {r : Request} {s : State}

/-- A refusal, or a reading, is the answer alone. -/
theorem Served.refused (st : Status) (payload : List Byte) : Served r s (answer r st payload s) := .answered .nothing _ _

/-- A request that takes no payload does what it does without one, or is MALFORMED. -/
theorem Served.withoutPayload {f : State → State} (h : Served r s (f s)) : Served r s (withoutPayload r f s) := by
  unfold Machine.withoutPayload
  split
  · exact h
  · exact .refused _ _

/-- A protected request does what it does when admitted, or is refused (R118). -/
theorem Served.guarded {f : State → State} (h : s.protection = none → Served r s (f s)) : Served r s (guarded r f s) := by
  unfold Machine.guarded
  split
  · exact .refused _ _
  next admitted => exact h admitted

theorem Served.ite {a b : State} {c : Prop} [Decidable c] (ha : c → Served r s a) (hb : ¬c → Served r s b) :
    Served r s (if c then a else b) := by
  split
  · exact ha ‹_›
  · exact hb ‹_›

theorem writeGeometry_served (code : r.code = codeWriteGeometry) : Served r s (writeGeometry r s) := by
  refine .guarded fun admitted => ?_
  split
  · exact .refused _ _
  next g _ =>
    split
    · exact .refused _ _
    next passes => exact .answered (.geometry code admitted g passes) _ _

theorem writeChannel_served (code : r.code = codeWriteChannel) : Served r s (writeChannel r s) := by
  refine .guarded fun admitted => ?_
  split
  · exact .refused _ _
  split
  next low =>
    split
    · exact .refused _ _
    dsimp only
    split
    · exact .refused _ _
    next passes => exact .answered (.channel code admitted ⟨natAt r.payload 0 1, low⟩ _ passes) _ _
  · exact .refused _ _

theorem writeSpeedCurve_served (code : r.code = codeWriteSpeedCurve) : Served r s (writeSpeedCurve r s) := by
  refine .guarded fun admitted => ?_
  split
  · exact .refused _ _
  split
  · exact .refused _ _
  next passes => exact .answered (.curve code admitted _ passes) _ _

theorem writeLimits_served (code : r.code = codeWriteLimits) : Served r s (writeLimits r s) := by
  refine .guarded fun admitted => ?_
  split
  · exact .refused _ _
  split
  · exact .refused _ _
  next passes => exact .answered (.limits code admitted _ passes) _ _

theorem commitCalibration_served (w : Bool) : Served r s (commitCalibration w r s) := by
  refine .guarded fun admitted => ?_
  split
  · exact .refused _ _
  split
  · exact .refused _ _
  split
  · exact .refused _ _
  next g k _ =>
    split
    · exact .refused _ _
    next room =>
      split
      · exact .committed admitted (by omega) g k
      · exact .answered .storeFault _ _

theorem writeLevel_served : Served r s (writeLevel r s) := by
  unfold writeLevel
  dsimp only
  split
  · exact .refused _ _
  split
  · split
    · exact .refused _ _
    next low => exact .answered (.levelled _ _ (by omega)) _ _
  · exact .refused _ _

theorem writeSettings_served : Served r s (writeSettings r s) := by
  unfold writeSettings
  split
  · exact .refused _ _
  split
  · exact .refused _ _
  · exact .answered (.settings _) _ _

theorem writeType_served : Served r s (writeType r s) := by
  unfold writeType
  split
  · exact .refused _ _
  split
  · exact .refused _ _
  split
  · split
    · exact .answered (.type _ _) _ _
    split
    · exact .refused _ _
    split
    · exact .refused _ _
    · exact .answered (.type _ _) _ _
  · exact .refused _ _

theorem appendEntry_served (e : ConsistEntry) (room : s.consist.length < consistCapacity) :
    Served r s (appendEntry r e s) := by
  unfold appendEntry
  dsimp only
  split
  · split
    · exact .answered (.appended e room .refl rfl) _ _
    · exact .answered (.appended e room (modifyVehicle_acts (Vehicle.keeps_resolvePresent e) _) rfl) _ _
    · refine .answered (.appended e room (modifyCtx_acts ?_) rfl) _ _
      exact fun _ => ⟨rfl, rfl, rfl, rfl, rfl, rfl⟩
  · exact .answered (.appended e room .refl rfl) _ _

theorem appendConsist_served : Served r s (appendConsist r s) := by
  unfold appendConsist
  split
  · exact .refused _ _
  split
  · exact .refused _ _
  split
  · exact .refused _ _
  split
  · exact .refused _ _
  next room => exact appendEntry_served _ (by omega)

theorem clearConsist_served : Served r s (clearConsist r s) := by
  refine .withoutPayload ?_
  split
  · exact .refused _ _
  · exact .answered .emptied _ _

theorem writeCounter_served (code : r.code = codeWriteCounter) : Served r s (writeCounter r s) := by
  unfold writeCounter
  split
  · exact .refused _ _
  split
  next low =>
    split
    · exact .refused _ _
    · exact .answered (.selected code ⟨natAt r.payload 0 1, low⟩ _) _ _
  · exact .refused _ _

theorem readTable_served : Served r s (readTable r s) := by
  unfold readTable
  split
  · exact .refused _ _
  split <;> exact .refused _ _

theorem abortTrain_served : Served r s (abortTrain r s) := by
  refine .withoutPayload ?_
  split
  next train => exact .answered (.aborted train) _ _
  · exact .refused _ _

theorem restart_served (code : r.code = codeRestart) : Served r s (restart r s) := by
  unfold restart
  split
  · exact .refused _ _
  next free =>
    split
    · exact .answered (.restarted code (by simpa using free)) _ _
    · exact .refused _ _

/-- R167, R181: what a request of any code does. -/
theorem perform_served (w : Bool) (r : Request) (s : State) : Served r s (perform w r s) := by
  unfold perform
  refine .ite (fun _ => .withoutPayload (.refused _ _)) fun _ => ?_
  refine .ite (fun _ => readTable_served) fun _ => ?_
  refine .ite (fun _ => .withoutPayload (.refused _ _)) fun _ => ?_
  refine .ite (fun _ => .withoutPayload (.answered .cleared _ _)) fun _ => ?_
  refine .ite (fun code => writeGeometry_served code) fun _ => ?_
  refine .ite (fun code => writeChannel_served code) fun _ => ?_
  refine .ite (fun code => writeSpeedCurve_served code) fun _ => ?_
  refine .ite (fun code => writeLimits_served code) fun _ => ?_
  refine .ite (fun _ => commitCalibration_served w) fun _ => ?_
  refine .ite (fun _ => writeSettings_served) fun _ => ?_
  refine .ite (fun _ => writeType_served) fun _ => ?_
  refine .ite (fun _ => appendConsist_served) fun _ => ?_
  refine .ite (fun _ => clearConsist_served) fun _ => ?_
  refine .ite (fun _ => writeLevel_served) fun _ => ?_
  refine .ite (fun code => writeCounter_served code) fun _ => ?_
  refine .ite (fun _ => .withoutPayload (.refused _ _)) fun _ => ?_
  refine .ite (fun code => .withoutPayload (.answered (.zeroed code) _ _)) fun _ => ?_
  refine .ite (fun _ => abortTrain_served) fun _ => ?_
  refine .ite (fun code => restart_served code) fun _ => ?_
  exact .refused _ _

end

/-! ## A command executed -/

theorem responsePlace_iff (s : State) :
    s.responsePlace = true ↔ s.link.responses.length + s.cal.committing.isSome.toNat < 4 := by
  exact decide_eq_true_iff

/-- The head request can be executed, and what is handed on. -/
theorem headRequest_iff {s s' : State} {r : Request} :
    s.headRequest = some (r, s') ↔ ∃ rest, s.CanExecute r rest ∧ s' = { s with requests := rest } := by
  simp only [headRequest_eq_some, State.CanExecute, responsePlace_iff]
  constructor
  · rintro ⟨rest, requests, part, place, rfl⟩
    exact ⟨rest, ⟨part, requests, place⟩, rfl⟩
  · rintro ⟨rest, ⟨part, requests, place⟩, rfl⟩
    exact ⟨rest, requests, part, place, rfl⟩

/-! ### What reaches the receiver -/

/-- From s to t the receiver took an accepted scan, 1 to 256 scans on (R19, R20). -/
structure Advanced (s t : State) (number : Word16) : Prop where
  lastScan : t.rx.lastScan = number
  synced : t.rx.synced = true
  time : ∃ d : Nat, 1 ≤ d ∧ d ≤ 256 ∧ t.rx.time = s.rx.time + BitVec.ofNat 32 d

/-- What a command makes of the receiver: nothing, a loss of sync by silence, or an accepted scan taken. -/
def Heard (c : Instr) (s t : State) : Prop :=
  t.rx = s.rx ∨ (c = .silenceTimeout ∧ t.rx = { s.rx with synced := false, silence := false }) ∨
    (s.part ≠ .starting ∧
      ∃ number samples p check,
        (c = .scanFrame p check ∨ c = .undefinedKindFrame kindScan p check) ∧
          examine s.cal.geometry kindScan p check = .accepted (.scan number samples) ∧ Advanced s t number)

theorem loseSync_rx (s : State) : (loseSync s).rx = { s.rx with synced := false, silence := false } := by
  unfold loseSync abortOnLoss
  split
  · exact (abortWith_weighing _ _).rx
  · rfl

theorem takeScan_rx (number : Word16) (xs : List Sample) (s : State) :
    (takeScan number xs s).rx = s.rx ∨ Advanced s (takeScan number xs s) number := by
  have sync (m : State) (time : m.rx.time = s.rx.time) : Advanced s (synchronizeScan number xs m) number := by
    have rx := (handOver_weighing none xs { m with rx := m.rx.synchronize number }).rx
    refine ⟨congrArg Receiver.lastScan rx, congrArg Receiver.synced rx, 1, le_rfl, by decide, ?_⟩
    exact (congrArg Receiver.time rx).trans (congrArg (· + 1#32) time)
  unfold takeScan
  split
  next synced =>
    extract_lets d
    have advance (m : State) (missing : Option (Scan × Scan)) (rx : m.rx = s.rx) (n : Nat) (low : 1 ≤ n) (high : n ≤ 256) :
        Advanced s
          (handOver missing xs { m with rx := m.rx.advance (s.rx.time + BitVec.ofNat 32 n) number }) number := by
      have rx' := (handOver_weighing missing xs { m with rx := m.rx.advance (s.rx.time + BitVec.ofNat 32 n) number }).rx
      refine ⟨congrArg Receiver.lastScan rx', (congrArg Receiver.synced rx').trans ?_, n, low, high, congrArg Receiver.time rx'⟩
      rw [rx]
      exact synced
    split
    · exact .inl rfl
    split
    · exact .inr (advance s none rfl 1 le_rfl (by decide))
    split
    next high =>
      exact .inr (advance (countEvent .scansLost (d - 1) (raiseCause .scanGap (d - 1) s)) _ rfl d (by omega) high)
    split
    · exact .inr (sync (raiseCause .trackSyncLost lostByJump (loseSync s))
        (show (loseSync s).rx.time = s.rx.time by rw [loseSync_rx]))
    · exact .inl rfl
  · exact .inr (sync s rfl)

theorem routeFrame_rx (f : Inbound) (s : State) :
    (routeFrame f s).rx = s.rx ∨ ∃ number xs, f = .scan number xs ∧ Advanced s (routeFrame f s) number := by
  cases f with
  | scan number xs => exact (takeScan_rx number xs s).imp id fun advanced => ⟨number, xs, rfl, advanced⟩
  | wheel x number fraction =>
    refine .inl ?_
    unfold routeFrame takeWheel
    dsimp only
    split
    · exact (takeEvent_weighing _ _ s).rx
    · rfl
  | request r =>
    refine .inl ?_
    unfold routeFrame takeRequest
    dsimp only
    split <;> rfl

/-- Only a frame of kind SCAN carries a scan (R15). -/
theorem kind_of_scan {g : Option GeometryRecord} {kind : Byte} {p : List Byte} {check : Word16} {number : Word16}
    {xs : List Sample} (h : examine g kind p check = .accepted (.scan number xs)) : kind = kindScan := by
  unfold examine at h
  split at h
  · cases h
  split at h
  · cases h
  split at h
  next scan => exact scan
  split at h
  · unfold examineWheel at h
    split at h
    · cases h
    split at h
    · split at h <;> cases h
    · cases h
  split at h
  · unfold examineRequest at h
    split at h <;> cases h
  · cases h

/-- What a command does before the frame boundary that ends it. -/
inductive Effect (c : Instr) (s : State) : State → Prop
  | begins {t : State} (h : Begins s t) (heard : Heard c s t) : Effect c s t
  | load (readable : Bool) (starting : s.part = .starting) :
      Effect c s (evaluateReadiness (reloadZones (loadStore readable s)))
  | serve (r : Request) (rest : List Request) (ready : s.CanExecute r rest) {t : State}
      (served : Served r { s with requests := rest } t) : Effect c s t
  | complete (verified : Bool) (tag : Byte) (committing : s.cal.committing = some tag) :
      Effect c s (completeCommit verified tag s)
  | calEn (level : Bool) : Effect c s (raiseCause .calEnChanged level.toNat { s with calEn := level })

/-- What the place freed by a started frame is used for (R160). -/
inductive HandedOn (s : State) : State → Prop
  | nothing : HandedOn s s
  | acts {t : State} (h : Acts s t) (rx : t.rx = s.rx) : HandedOn s t
  | serve (r : Request) (rest : List Request) (ready : s.CanExecute r rest) {t : State}
      (served : Served r { s with requests := rest } t) : HandedOn s t

/-- What a command does. -/
inductive Ran (c : Instr) (s : State) : State → Prop
  | idle : Ran c s s
  | reset (command : c = .powerOnReset) : Ran c s (powerOn s)
  | level (level : Bool) (starting : s.part = .starting) : Ran c s { s with calEn := level }
  | hold (command : c = .rlHoldAssert) : Ran c s { s with hold := true }
  | bounded {m : State} (effect : Effect c s m) : Ran c s (boundary m)
  | ended (w : Bool) (command : c = .frameEnd w) (sending : s.link.sending.isSome = true)
      (rests : (endFrame s).canStart = false ∨ (endFrame s).arbiter = none) : Ran c s (endFrame s)
  | released (w : Bool) (command : c = .rlHoldRelease w) (held : s.hold = true)
      (rests : ({ s with hold := false } : State).canStart = false ∨ s.arbiter = none) : Ran c s { s with hold := false }
  | endedOn (w : Bool) (command : c = .frameEnd w) (sending : s.link.sending.isSome = true) (x : Choice)
      (chosen : (endFrame s).chosen = some x) {t : State} (handed : HandedOn (startChosen x (endFrame s)) t) : Ran c s t
  | releasedOn (w : Bool) (command : c = .rlHoldRelease w) (held : s.hold = true) (x : Choice)
      (chosen : ({ s with hold := false } : State).chosen = some x) {t : State}
      (handed : HandedOn (startChosen x { s with hold := false }) t) : Ran c s t

theorem releaseVehicle_rx (v : Vehicle) (t : VehicleTotals) (s : State) : (releaseVehicle v t s).rx = s.rx := by
  unfold releaseVehicle
  extract_lets x s1 s2 s3
  rw [(considerFormation_weighing _).rx]
  exact (WeighingOnly.ite (countEvent_weighing _ _ s3) (.refl s3)).rx

theorem placeSummary_rx (c : TrainContext) (s : State) : (placeSummary c s).rx = s.rx := by
  unfold placeSummary
  extract_lets c' s1 x s2
  split <;> rfl

/-- R160: one freed place, one act. -/
theorem handFreedPlace_handed (w : Bool) (x : Choice) (s : State) : HandedOn s (handFreedPlace w x s) := by
  unfold handFreedPlace
  split
  · split
    next releasable => exact .acts (releaseVehicle_acts releasable) (releaseVehicle_rx _ _ _)
    · split
      next due => exact .acts (placeSummary_acts due) (placeSummary_rx _ _)
      · exact .nothing
  · split
    next r s' head =>
      obtain ⟨rest, ready, rfl⟩ := headRequest_iff.1 head
      exact .serve r rest ready (perform_served w r _)
    · exact .nothing
  · exact .nothing
  · exact .nothing

theorem handingBoundary_cases (w : Bool) (s : State) :
    (handingBoundary w s = s ∧ (s.canStart = false ∨ s.arbiter = none)) ∨
      ∃ x, s.chosen = some x ∧ HandedOn (startChosen x s) (handingBoundary w s) := by
  unfold handingBoundary
  split
  next x chosen => exact .inr ⟨x, chosen, handFreedPlace_handed w x _⟩
  next rests =>
    refine .inl ⟨rfl, ?_⟩
    unfold State.chosen at rests
    split at rests
    · exact .inr rests
    · exact .inl (by simp_all)

/-- The step of a request row executes its head request as its code says, or does nothing. -/
theorem onHead_ran (c : Instr) (s : State) {mine : Byte → Bool} {f : Request → State → State}
    (served : ∀ r, mine r.code = true → ∀ s, Served r s (f r s)) : Ran c s (onHead mine f s) := by
  rcases onHead_cases mine f s with same | ⟨r, s', head, own, eq⟩
  · rw [same]
    exact .idle
  · obtain ⟨rest, ready, rfl⟩ := headRequest_iff.1 head
    rw [eq]
    exact .bounded (.serve r rest ready (served r own _))

/-- A received frame, where a command whose kind is SCAN is that of an accepted scan. -/
theorem receiveFrame_ran (c : Instr) (kind : Byte) (p : List Byte) (check : Word16) (s : State)
    (scan : kind = kindScan → c = .scanFrame p check ∨ c = .undefinedKindFrame kindScan p check) :
    Ran c s (receiveFrame kind p check s) := by
  unfold receiveFrame
  split
  · exact .idle
  next started =>
    split
    next f accepted =>
      refine .bounded (.begins (routeFrame_begins f s) ?_)
      rcases routeFrame_rx f s with same | ⟨number, xs, rfl, advanced⟩
      · exact .inl same
      · obtain rfl := kind_of_scan accepted
        exact .inr (.inr ⟨started, number, xs, p, check, scan rfl, accepted, advanced⟩)
    · exact .bounded (.begins (.inl (rejectFrame_acts _ s)) (.inl rfl))

/-- Every command is one of these. -/
theorem exec_ran {c : Instr} {s t : State} (h : exec c s = .next t) : Ran c s t := by
  have reject (reason : Nat) : Ran c s (boundary (rejectFrame reason s)) :=
    .bounded (.begins (.inl (rejectFrame_acts reason s)) (.inl rfl))
  cases c <;> injection h with h <;> subst h
  case powerOnReset => exact .reset rfl
  case startUpLoad readable =>
    split
    next starting => exact .bounded (.load readable starting)
    · exact .idle
  case frameByteTimeout =>
    split
    · exact .idle
    · exact reject _
  case scanFrame p check => exact receiveFrame_ran _ _ p check s fun _ => .inl rfl
  case wheelFrame p check => exact receiveFrame_ran _ _ p check s fun no => absurd no (by decide)
  case requestFrame p check => exact receiveFrame_ran _ _ p check s fun no => absurd no (by decide)
  case undefinedKindFrame kind p check => exact receiveFrame_ran _ kind p check s fun scan => .inr (scan ▸ rfl)
  case oversizedPayloadLength n =>
    split
    · exact .idle
    · exact reject _
  case silenceTimeout =>
    split
    · exact .bounded (.begins (.inl ((loseSync_acts s).trans (raiseCause_acts _ _ _))) (.inr (.inl ⟨rfl, loseSync_rx s⟩)))
    · exact .idle
  case quietTimerExpiry =>
    split
    · exact .bounded (.begins (.inl (quietExpiry_acts s)) (.inl (quietExpiry_weighing s).rx))
    · exact .idle
  case idWaitExpiry q =>
    split
    · exact .bounded (.begins (.inl (modifyVehicle_acts (Vehicle.keeps_resolveAbsent _) s)) (.inl rfl))
    · exact .idle
  case vehicleRelease =>
    split
    next releasable => exact .bounded (.begins (.inl (releaseVehicle_acts releasable)) (.inl (releaseVehicle_rx _ _ _)))
    · exact .idle
  case summaryPlaced =>
    split
    next due => exact .bounded (.begins (.inl (placeSummary_acts due)) (.inl (placeSummary_rx _ _)))
    · exact .idle
  case commitComplete verified =>
    split
    next tag committing => exact .bounded (.complete verified tag committing)
    · exact .idle
  case calEnChange level =>
    split
    · exact .idle
    · split
      next starting => exact .level level starting
      · exact .bounded (.calEn level)
  case rlHoldAssert => exact .hold rfl
  case rlHoldRelease w =>
    split
    next held =>
      rcases handingBoundary_cases w { s with hold := false } with ⟨same, rests⟩ | ⟨x, chosen, handed⟩
      · rw [same]
        exact .released w rfl held rests
      · exact .releasedOn w rfl held x chosen handed
    · exact .idle
  case frameEnd w =>
    split
    next sending =>
      rcases handingBoundary_cases w (endFrame s) with ⟨same, rests⟩ | ⟨x, chosen, handed⟩
      · rw [same]
        exact .ended w rfl sending rests
      · exact .endedOn w rfl sending x chosen handed
    · exact .idle
  case readStatus => exact onHead_ran _ s fun r _ s => .withoutPayload (.refused _ _)
  case readTable => exact onHead_ran _ s fun r _ s => readTable_served
  case readNotices => exact onHead_ran _ s fun r _ s => .withoutPayload (.refused _ _)
  case clearNotices => exact onHead_ran _ s fun r _ s => .withoutPayload (.answered .cleared _ _)
  case writeGeometry => exact onHead_ran _ s fun r code s => writeGeometry_served (by simpa using code)
  case writeChannel => exact onHead_ran _ s fun r code s => writeChannel_served (by simpa using code)
  case writeSpeedCurve => exact onHead_ran _ s fun r code s => writeSpeedCurve_served (by simpa using code)
  case writeLimits => exact onHead_ran _ s fun r code s => writeLimits_served (by simpa using code)
  case commitCalibration w => exact onHead_ran _ s fun r _ s => commitCalibration_served w
  case writeSettings => exact onHead_ran _ s fun r _ s => writeSettings_served
  case writeType => exact onHead_ran _ s fun r _ s => writeType_served
  case appendConsist => exact onHead_ran _ s fun r _ s => appendConsist_served
  case clearConsist => exact onHead_ran _ s fun r _ s => clearConsist_served
  case writeLevel => exact onHead_ran _ s fun r _ s => writeLevel_served
  case writeCounter => exact onHead_ran _ s fun r code s => writeCounter_served (by simpa using code)
  case readCounters => exact onHead_ran _ s fun r _ s => .withoutPayload (.refused _ _)
  case resetCounters => exact onHead_ran _ s fun r code s => .withoutPayload (.answered (.zeroed (by simpa using code)) _ _)
  case abortTrain => exact onHead_ran _ s fun r _ s => abortTrain_served
  case restart => exact onHead_ran _ s fun r code s => restart_served (by simpa using code)
  case unknownRequest => exact onHead_ran _ s fun r _ s => .refused _ _

/-! ## Properties that every step keeps -/

/-- What a property of the state needs in order to be kept by every command. -/
structure Kept (P : State → Prop) : Prop where
  act : ∀ {s t}, Act s t → P s → P t
  start : ∀ d s, s.train.state = .idle → s.part = .ready → P s → P (startTrain d s)
  reset : ∀ s, P s → P (powerOn s)
  load : ∀ b s, s.part = .starting → P s → P (evaluateReadiness (reloadZones (loadStore b s)))
  serve : ∀ r rest s t, s.CanExecute r rest → Served r { s with requests := rest } t → P s → P t
  complete : ∀ b tag s, s.cal.committing = some tag → P s → P (completeCommit b tag s)
  calEn : ∀ b s, P s → P { s with calEn := b }
  hold : ∀ b s, P s → P { s with hold := b }
  ended : ∀ s, P s → P (endFrame s)
  chosen : ∀ x s, s.chosen = some x → P s → P (startChosen x s)

section
variable {P : State → Prop}

theorem Kept.boundary (k : Kept P) {s : State} (h : P s) : P (boundary s) := by
  unfold Machine.boundary
  split
  next x chosen => exact k.chosen x s chosen h
  · exact h

theorem Kept.acts (k : Kept P) {s t : State} (acts : Acts s t) (h : P s) : P t := acts.keep k.act h

theorem Kept.effect (k : Kept P) {c : Instr} {s t : State} (e : Effect c s t) (h : P s) : P t := by
  cases e with
  | begins b _ =>
    rcases b with acts | ⟨m, d, acts, -, -, -, idle, ready, later⟩
    · exact k.acts acts h
    · exact k.acts later (k.start d m idle ready (k.acts acts h))
  | load readable starting => exact k.load readable s starting h
  | serve r rest ready served => exact k.serve r rest s t ready served h
  | complete verified tag committing => exact k.complete verified tag s committing h
  | calEn level => exact k.act (.cause _ _) (k.calEn level s h)

theorem Kept.handed (k : Kept P) {s t : State} (e : HandedOn s t) (h : P s) : P t := by
  cases e with
  | nothing => exact h
  | acts acts _ => exact k.acts acts h
  | serve r rest ready served => exact k.serve r rest s t ready served h

theorem Kept.ran (k : Kept P) {c : Instr} {s t : State} (ran : Ran c s t) (h : P s) : P t := by
  cases ran with
  | idle => exact h
  | reset _ => exact k.reset s h
  | level b _ => exact k.calEn b s h
  | hold _ => exact k.hold true s h
  | bounded effect => exact k.boundary (k.effect effect h)
  | ended => exact k.ended s h
  | released => exact k.hold false s h
  | endedOn w _ _ x chosen handed => exact k.handed handed (k.chosen x _ chosen (k.ended s h))
  | releasedOn w _ _ x chosen handed => exact k.handed handed (k.chosen x _ chosen (k.hold false s h))

/-- A step takes the command at the front of the queue, or idles. -/
theorem step_eq_next {s t : State} (h : step s = .next t) :
    t = s ∨ ∃ c rest, Ran c { s with pending := rest } t := by
  unfold step at h
  split at h
  · exact .inl (by injection h with h; exact h.symm)
  next c rest _ => exact .inr ⟨c, rest, exec_ran h⟩

/-- A property that every command keeps, and that says nothing of the commands waiting, is kept by every step. -/
theorem Kept.step (k : Kept P) (pending : ∀ rest s, P s → P { s with pending := rest }) {s t : State}
    (h : Machine.step s = .next t) (hs : P s) : P t := by
  rcases step_eq_next h with rfl | ⟨c, rest, ran⟩
  · exact hs
  · exact k.ran ran (pending rest s hs)

end

end Sys2Proof.Machine
end

section
/-! Nothing unsent, and the capacities (R65, R89, R121, R129, R145, R155 to R159, R166). -/

namespace Sys2Proof.Machine

/-! ## Nothing unsent -/

theorem Act.sending {s t : State} (h : Act s t) : t.link.sending = s.link.sending := by cases h <;> rfl

theorem Acts.sending {s t : State} (h : Acts s t) : t.link.sending = s.link.sending :=
  h.keep (P := fun t => t.link.sending = s.link.sending) (fun act eq => act.sending.trans eq) rfl

theorem Changed.sending {r : Request} {s t : State} (h : Changed r s t) : t.link.sending = s.link.sending := by
  cases h with
  | appended _ _ acts _ => exact acts.sending
  | aborted train => exact (abortWith_acts _ train).sending
  | _ => rfl

/-- The execution of a request leaves the frame going out alone. -/
theorem Served.sending {r : Request} {s t : State} (h : Served r s t) : t.link.sending = s.link.sending := by
  cases h with
  | committed _ _ g k => rfl
  | answered change st b => exact change.sending

theorem HandedOn.sending {s t : State} (h : HandedOn s t) : t.link.sending = s.link.sending := by
  cases h with
  | nothing => rfl
  | acts acts _ => exact acts.sending
  | serve _ _ _ served => exact served.sending

theorem boundary_conserving (s : State) : (boundary s).Conserving := by
  intro released idle
  rcases boundary_settles s with held | busy | rests
  · exact absurd (held.symm.trans released) (by decide)
  · simp [idle] at busy
  · exact rests

/-- A state in which the arbiter rests or no frame can start has nothing unsent. -/
theorem conserving_of_rests {s : State} (rests : s.canStart = false ∨ s.arbiter = none) : s.Conserving := by
  intro released idle
  rcases rests with busy | rests
  · simp [State.canStart, released, idle] at busy
  · exact rests

/-- After a place was handed on a frame is going out. -/
theorem HandedOn.conserving {s t : State} {x : Choice} (h : HandedOn (startChosen x s) t) : t.Conserving := by
  intro _ idle
  have busy := startChosen_sending x s
  rw [← h.sending, idle] at busy
  cases busy

theorem powerOn_arbiter (s : State) : (powerOn s).arbiter = none := by
  have high : NoticeUnit.reset.choose 5 7 = none := by decide
  have low : NoticeUnit.reset.choose 1 4 = none := by decide
  have notices : (powerOn s).notices = NoticeUnit.reset := rfl
  have link : (powerOn s).link = RecordLink.reset := rfl
  simp [State.arbiter, notices, link, RecordLink.reset, high, low]

theorem Ran.conserving {c : Instr} {s t : State} (h : Ran c s t) (hs : s.Conserving) : t.Conserving := by
  cases h with
  | idle => exact hs
  | reset _ => exact fun _ _ => powerOn_arbiter s
  | level _ _ => exact hs
  | hold _ => exact fun released _ => absurd released (by simp)
  | bounded _ => exact boundary_conserving _
  | ended _ _ _ rests => exact conserving_of_rests rests
  | released _ _ _ rests => exact conserving_of_rests rests
  | endedOn _ _ _ _ _ handed => exact handed.conserving
  | releasedOn _ _ _ _ _ handed => exact handed.conserving

/-! ## Capacities -/

/-- Every queue and list holds no more than its capacity, the Response Queue with `k` places to spare. -/
structure State.Fits (k : Nat) (s : State) : Prop where
  records : s.link.records.length ≤ 64
  details : s.link.details.length ≤ 32
  responses : s.link.responses.length + s.cal.committing.isSome.toNat + k ≤ 4
  requests : s.requests.length ≤ 4
  consist : s.consist.length ≤ 512
  queue : s.axles.queue.length ≤ 128
  windows : ∀ z : Fin 4, s.zones[z].windows.length ≤ 48
  list : s.asm.list.length ≤ 16

theorem fits_iff (s : State) : s.QueuesFit ∧ s.ListsFit ↔ s.Fits 0 :=
  ⟨fun ⟨⟨a, b, c, d, e⟩, f, g, i⟩ => ⟨a, b, c, d, e, f, g, i⟩,
    fun ⟨a, b, c, d, e, f, g, i⟩ => ⟨⟨a, b, c, d, e⟩, f, g, i⟩⟩

theorem forceLowest_length (l : List Vehicle) : (forceLowest l).length = l.length := by
  induction l with
  | nil => rfl
  | cons v l ih =>
    unfold forceLowest
    split <;> simp [ih]

theorem beginWait_length (q : Nat) (s : State) : (beginWait q s).asm.list.length = s.asm.list.length := by
  unfold beginWait modifyVehicle
  dsimp only
  split <;> simp [forceLowest_length]

theorem length_append_one_le {α : Type} {l : List α} {n : Nat} (room : l.length < n) (x : α) : (l ++ [x]).length ≤ n := by
  simpa using room

theorem Act.fits {k : Nat} {s t : State} (h : Act s t) (f : s.Fits k) : t.Fits k := by
  cases h with
  | enqueue r room => exact { f with requests := length_append_one_le room r }
  | zones zs kept =>
    refine { f with windows := fun z => ?_ }
    have := f.windows z
    rcases (kept z).length with shorter | short
    · exact shorter.trans this
    · exact short
  | finish reason train =>
    refine { f with windows := fun z => ?_ }
    rw [emptyWindows, mapZones_get]
    exact Nat.zero_le _
  | dispose again train => exact { f with consist := Nat.zero_le _ }
  | enter a new ordinals room train ordinal sound => exact { f with queue := length_append_one_le room a }
  | records g ordinal sound => exact { f with queue := (List.length_map g).trans_le f.queue }
  | discard n train => exact { f with queue := (List.length_filter_le _ _).trans f.queue }
  | release n => exact { f with queue := (List.length_filter_le _ _).trans f.queue }
  | vehicles g keeps => exact { f with list := (List.length_map g).trans_le f.list }
  | wait q v held unresolved => exact { f with list := (beginWait_length q s).trans_le f.list }
  | form v sequence unresolved room => exact { f with list := length_append_one_le room v }
  | dissolve n held => exact { f with list := (List.length_dropLast.trans_le (Nat.sub_le _ _)).trans f.list }
  | shorten l part => exact { f with list := part.length_le.trans f.list }
  | detail d room => exact { f with details := length_append_one_le room d }
  | record q room => exact { f with records := length_append_one_le room q }
  | _ => exact { f with }

theorem Acts.fits {k : Nat} {s t : State} (h : Acts s t) (f : s.Fits k) : t.Fits k := h.keep Act.fits f

/-- An answer takes one place of the Response Queue. -/
theorem State.Fits.answer {s : State} (f : s.Fits 1) (r : Request) (st : Status) (b : List Byte) :
    (answer r st b s).Fits 0 := by
  refine { f with responses := ?_ }
  have := f.responses
  simp only [Machine.answer, placeResponse, List.length_append, List.length_singleton]
  omega

/-- What a zone keeps where a channel of it is replaced. -/
theorem reloadChannel_windows (ch : Fin 8) (rec : ChannelRecord) (s : State) (z : Fin 4) :
    (reloadChannel ch rec s).zones[z].windows = s.zones[z].windows := by
  unfold reloadChannel
  rw [setZone_get]
  split
  next same => rw [ZoneUnit.setChannel_windows, same]
  · rfl

theorem reloadZones_windows (s : State) (z : Fin 4) : (reloadZones s).zones[z].windows = [] := by
  rw [reloadZones, mapZones_get]

theorem Changed.fits {r : Request} {s t : State} (h : Changed r s t) (f : s.Fits 1) : t.Fits 1 := by
  cases h with
  | channel _ _ ch rec _ =>
    exact { f with windows := fun z => (congrArg List.length (reloadChannel_windows ch rec s z)).trans_le (f.windows z) }
  | appended e room acts _ => exact acts.fits { f with consist := length_append_one_le room e }
  | emptied => exact { f with consist := Nat.zero_le _ }
  | aborted train => exact (abortWith_acts _ train).fits f
  | restarted _ free =>
    constructor
    case responses =>
      show 0 + s.cal.committing.isSome.toNat + 1 ≤ 4
      rw [free]
      decide
    case windows => exact fun z => (congrArg List.length (reloadZones_windows _ z)).trans_le (Nat.zero_le _)
    all_goals exact Nat.zero_le _
  | _ => exact { f with }

theorem Served.fits {r : Request} {s t : State} (h : Served r s t) (f : s.Fits 1) : t.Fits 0 := by
  cases h with
  | answered change st b => exact (change.fits f).answer r st b
  | committed admitted _ g k =>
    have free : s.cal.committing = none := ((protection_eq_none s).1 admitted).2.2
    refine { f with responses := ?_ }
    have := f.responses
    simp only [acceptCommit, Option.isSome_some, Bool.toNat_true, free, Option.isSome_none, Bool.toNat_false] at this ⊢
    omega

/-- No command takes a queue or list beyond its capacity. -/
theorem fits_kept : Kept (State.Fits 0) where
  act := Act.fits
  start d s _ _ f := { f with queue := Nat.zero_le _, list := Nat.zero_le _ }
  reset s f := by
    constructor
    case responses => exact Nat.zero_le _
    case windows =>
      have : ∀ z : Fin 4, State.reset.zones[z].windows = [] := by decide
      exact fun z => (congrArg List.length (this z)).trans_le (Nat.zero_le _)
    all_goals exact Nat.zero_le _
  load b s _ f := by
    have uncommitted : (loadStore b s).cal.committing = none := by
      unfold loadStore
      dsimp only
      split <;> rfl
    have rest : (loadStore b s).link = s.link ∧ (loadStore b s).requests = s.requests ∧
        (loadStore b s).consist = s.consist ∧ (loadStore b s).axles = s.axles ∧ (loadStore b s).asm = s.asm := by
      unfold loadStore
      dsimp only
      split <;> exact ⟨rfl, rfl, rfl, rfl, rfl⟩
    generalize loadStore b s = m at uncommitted rest
    obtain ⟨link, requests, consist, axles, asm⟩ := rest
    constructor
    case records => exact (congrArg (fun l => l.records.length) link).trans_le f.records
    case details => exact (congrArg (fun l => l.details.length) link).trans_le f.details
    case responses =>
      have := f.responses
      simp only [evaluateReadiness_link, evaluateReadiness_cal, reloadZones_link, reloadZones_cal, link, uncommitted,
        Option.isSome_none, Bool.toNat_false]
      omega
    case requests => exact (congrArg List.length requests).trans_le f.requests
    case consist => exact (congrArg List.length consist).trans_le f.consist
    case queue => exact (congrArg (fun x => x.queue.length) axles).trans_le f.queue
    case windows => exact fun z => (congrArg List.length (reloadZones_windows m z)).trans_le (Nat.zero_le _)
    case list => exact (congrArg (fun x => x.list.length) asm).trans_le f.list
  serve r rest s t ready served f := by
    obtain ⟨-, requests, room⟩ := ready
    have shorter : rest.length ≤ 4 := by
      have := f.requests
      rw [requests] at this
      exact (Nat.le_succ _).trans this
    exact served.fits { f with requests := shorter, responses := room }
  complete b tag s committing f := by
    have := f.responses
    rw [committing] at this
    have responses : (s.link.responses ++ [_]).length + 0 + 0 ≤ 4 := length_append_one_le this
      ({ tag, code := codeCommitCalibration, status := if b then .ok else .storeFault, payload := [] } : Response)
    cases b <;> exact { f with responses := responses }
  calEn b s f := { f with }
  hold b s f := { f with }
  ended s f := { f with }
  chosen x s _ f := by
    have tail {α : Type} {l : List α} {n : Nat} (h : l.length ≤ n) : l.tail.length ≤ n :=
      (List.length_tail.trans_le (Nat.sub_le _ _)).trans h
    cases x with
    | response r =>
      refine { f with responses := ?_ }
      have := f.responses
      have shorter : s.link.responses.tail.length ≤ s.link.responses.length := tail le_rfl
      simp only [startChosen]
      omega
    | notice k => exact { f with }
    | record q => exact { f with records := tail f.records }
    | detail d => exact { f with details := tail f.details }

end Sys2Proof.Machine

open Sys2Proof Sys2Proof.Machine

/-- Settles O49: each command ends with a boundary, or with a frame going out, or leaves what could start a frame alone. -/
theorem stepsLeaveNothingUnsent : Obligations.StepsLeaveNothingUnsent := by
  unfold Obligations.StepsLeaveNothingUnsent
  intro s t conserving stepped
  rcases step_eq_next stepped with rfl | ⟨c, rest, ran⟩
  · exact conserving
  · exact ran.conserving conserving

/-- Settles O50: `State.Fits` is kept act by act, and an answered request had a place. -/
theorem stepsKeepEveryCapacity : Obligations.StepsKeepEveryCapacity := by
  unfold Obligations.StepsKeepEveryCapacity
  intro s t fits stepped
  rw [fits_iff] at fits ⊢
  exact fits_kept.step (fun _ _ f => { f with }) stepped fits
end

section
/-! The ordinal bounds, the axle records and the vehicles in order (R48, R64, R65, R77, R111, R129, R150). -/

namespace Sys2Proof.Machine

/-! ## The ordinal bounds -/

/-- The bounds of a train with context c count its axles on the section (R48, R64). -/
structure Counted (state : TrainState) (x : AxleTracker) (c : TrainContext) : Prop where
  one : 1 ≤ x.firstOn
  first : x.firstOn ≤ x.lastOn + 1
  highest : state = .running ∨ state = .standing → x.lastOn ≤ x.highest
  count : BitVec.ofNat 32 (x.lastOn + 1 - x.firstOn) = c.entries - c.backouts - c.exits + c.returns

theorem boundsCount_iff (s : State) : s.BoundsCount ↔ ∀ c, s.train.ctx = some c → Counted s.train.state s.axles c := by
  unfold State.BoundsCount
  cases s.train.ctx with
  | none => simp
  | some c =>
    simp only [Option.all_some, decide_eq_true_eq, Option.some.injEq, forall_eq']
    exact ⟨fun ⟨a, b, d, e⟩ => ⟨a, b, d, e⟩, fun ⟨a, b, d, e⟩ => ⟨a, b, d, e⟩⟩

/-- One more axle on the section. -/
theorem ofNat_section_succ {n m : Nat} (h : n ≤ m + 1) :
    BitVec.ofNat 32 (m + 1 + 1 - n) = BitVec.ofNat 32 (m + 1 - n) + 1 := by
  rw [Nat.succ_sub h, Nat.succ_eq_add_one, BitVec.ofNat_add]
  rfl

/-- What holds of the context of s holds of that of a state with an updated one. -/
theorem forall_ctx_map {s : State} {f : TrainContext → TrainContext} {P Q : TrainContext → Prop}
    (h : ∀ c, s.train.ctx = some c → P c) (step : ∀ c, P c → Q (f c)) : ∀ c, s.train.ctx.map f = some c → Q c := by
  intro c' eq
  obtain ⟨c, held, rfl⟩ := Option.map_eq_some_iff.1 eq
  exact step c (h c held)

theorem Counted.of_state {state state' : TrainState} {x : AxleTracker} {c : TrainContext} (h : Counted state x c)
    (train : state' = .running ∨ state' = .standing → state = .running ∨ state = .standing) : Counted state' x c :=
  ⟨h.one, h.first, fun t => h.highest (train t), h.count⟩

theorem Act.boundsCount {s t : State} (h : Act s t) (b : ∀ c, s.train.ctx = some c → Counted s.train.state s.axles c) :
    ∀ c, t.train.ctx = some c → Counted t.train.state t.axles c := by
  cases h with
  | context f continues =>
    refine forall_ctx_map b fun c counted => { counted with count := ?_ }
    rw [(continues c).onSection]
    exact counted.count
  | run x train => exact fun c held => (b c held).of_state fun _ => train
  | stand x train windows => exact fun c held => (b c held).of_state fun _ => .inl train
  | finish reason train =>
    refine forall_ctx_map b fun c counted => ⟨counted.one, counted.first, fun t => ?_, counted.count⟩
    rcases t with t | t <;> cases t
  | ignore x n train => exact fun c held => (b c held).of_state (by rintro (t | t) <;> cases t)
  | rest train => exact fun c held => (b c held).of_state (by rintro (t | t) <;> cases t)
  | dispose again train => exact fun c held => nomatch held
  | enter a new ordinals room train ordinal sound =>
    refine forall_ctx_map b fun c counted => ?_
    have last := counted.highest (.inl train)
    have same : s.axles.highest = s.axles.lastOn := by omega
    refine ⟨counted.one, ?_, fun _ => le_rfl, ?_⟩
    · have := counted.first
      dsimp only
      omega
    · dsimp only
      rw [same, ofNat_section_succ counted.first, counted.count]
      ring
  | reEnter held =>
    refine forall_ctx_map b fun c counted => ⟨counted.one, counted.first.trans (Nat.le_succ _), fun _ => held, ?_⟩
    dsimp only
    rw [ofNat_section_succ counted.first, counted.count]
    ring
  | backOut on =>
    refine forall_ctx_map b fun c counted => ?_
    have one := counted.one
    obtain ⟨n, last⟩ : ∃ n, s.axles.lastOn = n + 1 := ⟨s.axles.lastOn - 1, by omega⟩
    have count := counted.count
    refine ⟨one, ?_, fun t => (Nat.sub_le _ _).trans (counted.highest t), ?_⟩
    · dsimp only
      omega
    · rw [last] at count on ⊢
      rw [ofNat_section_succ on] at count
      dsimp only
      rw [Nat.add_sub_cancel, eq_sub_of_add_eq count]
      ring
  | exit on =>
    refine forall_ctx_map b fun c counted => ⟨Nat.le_add_left _ _, Nat.succ_le_succ on, counted.highest, ?_⟩
    have count := counted.count
    rw [Nat.succ_sub on] at count
    dsimp only
    rw [Nat.add_sub_add_right]
    rw [Nat.succ_eq_add_one, BitVec.ofNat_add] at count
    change _ + (1 : BitVec 32) = _ at count
    rw [eq_sub_of_add_eq count]
    ring
  | comeBack cleared =>
    refine forall_ctx_map b fun c counted => ?_
    obtain ⟨n, first⟩ : ∃ n, s.axles.firstOn = n + 2 := ⟨s.axles.firstOn - 2, by omega⟩
    have := counted.first
    have count := counted.count
    refine ⟨?_, ?_, counted.highest, ?_⟩
    · dsimp only
      omega
    · dsimp only
      omega
    · dsimp only
      have more : s.axles.lastOn + 1 - (s.axles.firstOn - 1) = s.axles.lastOn + 1 - s.axles.firstOn + 1 := by omega
      rw [more, BitVec.ofNat_add, count]
      change _ + (1 : BitVec 32) = _
      ring
  | discard n train =>
    exact fun c held => { b c held with highest := fun t => by simp [train] at t }
  | release n => exact fun c held => { b c held with }
  | records f ordinal sound => exact fun c held => { b c held with }
  | _ => exact b

theorem Changed.boundsCount {r : Request} {s t : State} (h : Changed r s t)
    (b : ∀ c, s.train.ctx = some c → Counted s.train.state s.axles c) :
    ∀ c, t.train.ctx = some c → Counted t.train.state t.axles c := by
  cases h with
  | appended e room acts _ => exact acts.keep Act.boundsCount b
  | aborted train => exact (abortWith_acts _ train).keep Act.boundsCount b
  | restarted _ _ => exact fun c held => nomatch held
  | _ => exact b

/-- The load touches no train. -/
theorem loadStore_train (b : Bool) (s : State) : (loadStore b s).train = s.train ∧ (loadStore b s).axles = s.axles ∧
    (loadStore b s).asm = s.asm ∧ (loadStore b s).rx = s.rx := by
  unfold loadStore
  dsimp only
  split <;> exact ⟨rfl, rfl, rfl, rfl⟩

theorem boundsCount_kept : Kept fun s => ∀ c, s.train.ctx = some c → Counted s.train.state s.axles c where
  act := Act.boundsCount
  start d s _ _ _ := by
    intro c held
    cases held
    exact ⟨le_rfl, le_rfl, fun _ => le_rfl, show (0#32) = 0#32 - 0#32 - 0#32 + 0#32 by decide⟩
  reset s _ := fun c held => nomatch held
  load b s _ h := by
    obtain ⟨train, axles, -⟩ := loadStore_train b s
    simp only [evaluateReadiness_train, evaluateReadiness_axles, reloadZones_train, reloadZones_axles, train, axles]
    exact h
  serve r rest s t _ served h := by
    cases served with
    | answered change _ _ => exact change.boundsCount h
    | committed _ _ _ _ => exact h
  complete b tag s _ h := by cases b <;> exact h
  calEn _ _ h := h
  hold _ _ h := h
  ended _ h := h
  chosen x _ _ h := by cases x <;> exact h

/-! ## The axle records -/

/-- The axle records in order (R65), each sound (R77, R111). -/
structure AxlesKept (x : AxleTracker) : Prop where
  ascending : (x.queue.map AxleRecord.ordinal).Pairwise (· < ·)
  ordinals : ∀ a ∈ x.queue, 1 ≤ a.ordinal ∧ a.ordinal ≤ x.highest
  sound : ∀ a ∈ x.queue, a.Sound
  highest : x.highest ≤ 4095

theorem axlesSound_iff (s : State) : s.AxlesSound ↔ AxlesKept s.axles := by
  constructor
  · rintro ⟨ascending, each, highest⟩
    exact ⟨ascending, fun a mem => ⟨(each a mem).1, (each a mem).2.1⟩,
      fun a mem => ⟨(each a mem).2.2.1, (each a mem).2.2.2⟩, highest⟩
  · rintro ⟨ascending, ordinals, sound, highest⟩
    exact ⟨ascending, fun a mem => ⟨(ordinals a mem).1, (ordinals a mem).2, (sound a mem).flags, (sound a mem).axleLoad⟩,
      highest⟩

/-- Fewer records stay in order. -/
theorem AxlesKept.filter {x : AxleTracker} (h : AxlesKept x) (p : AxleRecord → Bool) {n f l w : Nat}
    (highest : n ≤ x.highest) (below : ∀ a ∈ x.queue, p a = true → a.ordinal ≤ n) :
    AxlesKept { highest := n, firstOn := f, lastOn := l, lowestHeld := w, queue := x.queue.filter p } where
  ascending := h.ascending.sublist (List.filter_sublist.map _)
  ordinals a mem := ⟨(h.ordinals a (List.mem_of_mem_filter mem)).1,
    below a (List.mem_of_mem_filter mem) (List.of_mem_filter mem)⟩
  sound a mem := h.sound a (List.mem_of_mem_filter mem)
  highest := highest.trans h.highest

theorem Act.axlesKept {s t : State} (h : Act s t) (k : AxlesKept s.axles) : AxlesKept t.axles := by
  cases h with
  | enter a new ordinals room train ordinal sound =>
    constructor
    · rw [List.map_append, List.pairwise_append]
      refine ⟨k.ascending, List.pairwise_singleton _ _, fun n mem m last => ?_⟩
      obtain ⟨x, held, rfl⟩ := List.mem_map.1 mem
      obtain rfl : m = a.ordinal := by simpa using last
      exact ordinal ▸ Nat.lt_succ_of_le (k.ordinals x held).2
    · intro x mem
      rcases List.mem_append.1 mem with held | last
      · exact ⟨(k.ordinals x held).1, (k.ordinals x held).2.trans (Nat.le_succ _)⟩
      · obtain rfl : x = a := by simpa using last
        exact ⟨ordinal ▸ Nat.le_add_left _ _, ordinal.le⟩
    · intro x mem
      rcases List.mem_append.1 mem with held | last
      · exact k.sound x held
      · obtain rfl : x = a := by simpa using last
        exact sound
    · exact ordinals
  | records f ordinal sound =>
    constructor
    · rw [List.map_map, show AxleRecord.ordinal ∘ f = AxleRecord.ordinal from funext ordinal]
      exact k.ascending
    · intro b mem
      obtain ⟨a, held, rfl⟩ := List.mem_map.1 mem
      rw [ordinal]
      exact k.ordinals a held
    · intro b mem
      obtain ⟨a, held, rfl⟩ := List.mem_map.1 mem
      exact sound k.sound a held
    · exact k.highest
  | discard n train =>
    refine k.filter _ (Nat.min_le_left _ _) fun a mem low => ?_
    have := (k.ordinals a mem).2
    have : a.ordinal ≤ n := by simpa using low
    omega
  | release n => exact k.filter _ le_rfl fun a mem _ => (k.ordinals a mem).2
  | reEnter held => exact { k with }
  | backOut on => exact { k with }
  | exit on => exact { k with }
  | comeBack cleared => exact { k with }
  | _ => exact k

theorem axlesKept_reset : AxlesKept AxleTracker.reset where
  ascending := .nil
  ordinals _ mem := nomatch mem
  sound _ mem := nomatch mem
  highest := Nat.zero_le _

theorem axlesKept_kept : Kept fun s => AxlesKept s.axles where
  act := Act.axlesKept
  start _ _ _ _ _ := axlesKept_reset
  reset _ _ := axlesKept_reset
  load b s _ h := by
    simp only [evaluateReadiness_axles, reloadZones_axles, (loadStore_train b s).2.1]
    exact h
  serve r rest s t _ served h := by
    cases served with
    | committed _ _ _ _ => exact h
    | answered change _ _ =>
      cases change with
      | appended e room acts _ => exact acts.keep (P := fun s => AxlesKept s.axles) Act.axlesKept h
      | aborted train => exact (abortWith_acts _ train).keep (P := fun s => AxlesKept s.axles) Act.axlesKept h
      | restarted _ _ => exact axlesKept_reset
      | _ => exact h
  complete b tag s _ h := by cases b <;> exact h
  calEn _ _ h := h
  hold _ _ h := h
  ended _ h := h
  chosen x _ _ h := by cases x <;> exact h

/-! ## The vehicles -/

/-- The vehicles of a list in sequence order below a next sequence number, at most four of them waiting (R129, R150). -/
structure ListOrdered (l : List Vehicle) (next : Nat) : Prop where
  ascending : (l.map Vehicle.sequence).Pairwise (· < ·)
  below : ∀ v ∈ l, v.sequence < next
  waiting : waitingCount l ≤ 4

theorem vehiclesOrdered_iff (s : State) : s.VehiclesOrdered ↔ ListOrdered s.asm.list s.asm.nextSeq :=
  ⟨fun ⟨a, b, c⟩ => ⟨a, b, c⟩, fun ⟨a, b, c⟩ => ⟨a, b, c⟩⟩

theorem ListOrdered.nil (n : Nat) : ListOrdered [] n :=
  { ascending := .nil, below := fun _ mem => (List.not_mem_nil mem).elim, waiting := Nat.zero_le _ }

theorem waitingCount_sublist {l m : List Vehicle} (h : l.Sublist m) : waitingCount l ≤ waitingCount m :=
  (h.filter _).length_le

theorem waitingCount_map_le {f : Vehicle → Vehicle} (keeps : ∀ v : Vehicle, (f v).isWaiting = true → v.isWaiting = true)
    (l : List Vehicle) : waitingCount (l.map f) ≤ waitingCount l := by
  unfold waitingCount
  rw [List.filter_map, List.length_map]
  exact (List.monotone_filter_right _ keeps).length_le

theorem waitingCount_append (l m : List Vehicle) : waitingCount (l ++ m) = waitingCount l + waitingCount m := by
  simp [waitingCount]

theorem ListOrdered.sublist {l m : List Vehicle} {n : Nat} (h : ListOrdered m n) (part : l.Sublist m) :
    ListOrdered l n :=
  ⟨h.ascending.sublist (part.map _), fun v mem => h.below v (part.subset mem),
    (waitingCount_sublist part).trans h.waiting⟩

/-- An update of each vehicle that keeps its sequence number. -/
theorem ListOrdered.map {l : List Vehicle} {n : Nat} (h : ListOrdered l n) {f : Vehicle → Vehicle}
    (sequence : ∀ v, (f v).sequence = v.sequence) (waiting : waitingCount (l.map f) ≤ 4) : ListOrdered (l.map f) n := by
  refine ⟨?_, fun w mem => ?_, waiting⟩
  · rw [List.map_map, show Vehicle.sequence ∘ f = Vehicle.sequence from funext sequence]
    exact h.ascending
  · obtain ⟨v, held, rfl⟩ := List.mem_map.1 mem
    rw [sequence]
    exact h.below v held

/-- One vehicle of a sequence number at most. -/
theorem waitingCount_modify_le {l : List Vehicle} (ascending : (l.map Vehicle.sequence).Pairwise (· < ·)) (q : Nat)
    (f : Vehicle → Vehicle) : waitingCount (l.map fun v => if v.sequence = q then f v else v) ≤ waitingCount l + 1 := by
  induction l with
  | nil => exact Nat.zero_le _
  | cons v l ih =>
    obtain ⟨first, rest⟩ := List.pairwise_cons.1 ascending
    have cons (w : Vehicle) (m : List Vehicle) : waitingCount (w :: m) = waitingCount [w] + waitingCount m :=
      waitingCount_append [w] m
    have one (w : Vehicle) : waitingCount [w] ≤ 1 := List.length_filter_le _ _
    rw [List.map_cons, cons, cons v]
    by_cases same : v.sequence = q
    · have others : (l.map fun w => if w.sequence = q then f w else w) = l := by
        rw [List.map_congr_left, List.map_id]
        intro w mem
        have := first w.sequence (List.mem_map_of_mem mem)
        rw [if_neg (by omega), id]
      rw [others]
      have := one (if v.sequence = q then f v else v)
      omega
    · rw [if_neg same]
      have := ih rest
      omega

theorem forceLowest_sequences (l : List Vehicle) : (forceLowest l).map Vehicle.sequence = l.map Vehicle.sequence := by
  induction l with
  | nil => rfl
  | cons v l ih =>
    unfold forceLowest
    split
    · rfl
    · simp [ih]

/-- R150: forcing takes one vehicle out of those that wait. -/
theorem waitingCount_forceLowest (l : List Vehicle) : waitingCount (forceLowest l) = waitingCount l - 1 := by
  induction l with
  | nil => rfl
  | cons v l ih =>
    unfold forceLowest
    by_cases waits : v.isWaiting = true
    · rw [if_pos waits]
      unfold waitingCount
      rw [List.filter_cons_of_pos waits]
      simp [Vehicle.isWaiting, Vehicle.resolveAbsent]
    · simp only [waits, if_false, Bool.false_eq_true]
      simpa [waitingCount, waits] using ih

/-- A wait that begins leaves at most four waiting. -/
theorem ListOrdered.beginWait {s : State} (h : ListOrdered s.asm.list s.asm.nextSeq) (q : Nat) :
    ListOrdered (beginWait q s).asm.list (Machine.beginWait q s).asm.nextSeq := by
  have forced : ListOrdered (if waitingCapacity ≤ waitingCount s.asm.list then forceLowest s.asm.list else s.asm.list)
      s.asm.nextSeq ∧ waitingCount (if waitingCapacity ≤ waitingCount s.asm.list then forceLowest s.asm.list
        else s.asm.list) ≤ 3 := by
    have most := h.waiting
    split
    next full =>
      have fewer := waitingCount_forceLowest s.asm.list
      have same := forceLowest_sequences s.asm.list
      refine ⟨⟨same ▸ h.ascending, fun w mem => ?_, by omega⟩, by omega⟩
      obtain ⟨v, held, eq⟩ := List.mem_map.1 (same ▸ List.mem_map_of_mem mem)
      exact eq ▸ h.below v held
    next room =>
      simp only [waitingCapacity] at room
      exact ⟨h, by omega⟩
  unfold Machine.beginWait modifyVehicle
  dsimp only
  generalize (if waitingCapacity ≤ waitingCount s.asm.list then forceLowest s.asm.list else s.asm.list) = l at forced
  obtain ⟨ordered, three⟩ := forced
  refine ordered.map (fun v => by split <;> rfl) ?_
  exact (waitingCount_modify_le ordered.ascending q _).trans (Nat.succ_le_succ three)

theorem Act.listOrdered {s t : State} (h : Act s t) (o : ListOrdered s.asm.list s.asm.nextSeq) :
    ListOrdered t.asm.list t.asm.nextSeq := by
  cases h with
  | vehicles f keeps =>
    exact o.map (fun v => (keeps v).sequence)
      ((waitingCount_map_le (fun v => (keeps v).waiting) s.asm.list).trans o.waiting)
  | wait q v held unresolved => exact o.beginWait q
  | form v sequence unresolved room =>
    refine ⟨?_, fun w mem => ?_, ?_⟩
    · rw [List.map_append, List.pairwise_append]
      refine ⟨o.ascending, List.pairwise_singleton _ _, fun n mem m last => ?_⟩
      obtain ⟨x, held, rfl⟩ := List.mem_map.1 mem
      obtain rfl : m = v.sequence := by simpa using last
      exact sequence ▸ o.below x held
    · rcases List.mem_append.1 mem with held | last
      · exact Nat.lt_succ_of_lt (o.below w held)
      · obtain rfl : w = v := by simpa using last
        exact sequence ▸ Nat.lt_succ_self _
    · rw [waitingCount_append]
      have none : waitingCount [v] = 0 := by simp [waitingCount, unresolved]
      exact (none ▸ o.waiting : waitingCount s.asm.list + waitingCount [v] ≤ 4)
  | dissolve k held =>
    have fewer := o.sublist (List.dropLast_sublist s.asm.list)
    refine { fewer with below := fun v mem => ?_ }
    have split := List.dropLast_concat_getLast held
    have ascending := o.ascending
    rw [← split, List.map_append, List.pairwise_append] at ascending
    have before := ascending.2.2 v.sequence (List.mem_map_of_mem mem) (s.asm.list.getLast held).sequence (by simp)
    have last := o.below _ (List.getLast_mem held)
    dsimp only
    omega
  | shorten l part => exact o.sublist part
  | _ => exact o

theorem listOrdered_kept : Kept fun s => ListOrdered s.asm.list s.asm.nextSeq where
  act := Act.listOrdered
  start _ _ _ _ _ := .nil _
  reset _ _ := .nil _
  load b s _ h := by
    simp only [evaluateReadiness_asm, reloadZones_asm, (loadStore_train b s).2.2.1]
    exact h
  serve r rest s t _ served h := by
    cases served with
    | committed _ _ _ _ => exact h
    | answered change _ _ =>
      cases change with
      | appended e room acts _ =>
        exact acts.keep (P := fun s => ListOrdered s.asm.list s.asm.nextSeq) Act.listOrdered h
      | aborted train =>
        exact (abortWith_acts _ train).keep (P := fun s => ListOrdered s.asm.list s.asm.nextSeq) Act.listOrdered h
      | restarted _ _ => exact .nil _
      | _ => exact h
  complete b tag s _ h := by cases b <;> exact h
  calEn _ _ h := h
  hold _ _ h := h
  ended _ h := h
  chosen x _ _ h := by cases x <;> exact h

end Sys2Proof.Machine

open Sys2Proof Sys2Proof.Machine

/-- Settles O51: the bounds and the counts of R48 move together in the five acts that move either. -/
theorem stepsKeepTheBoundsCounted : Obligations.StepsKeepTheBoundsCounted := by
  unfold Obligations.StepsKeepTheBoundsCounted
  intro s t counted stepped
  rw [boundsCount_iff] at counted ⊢
  exact boundsCount_kept.step (fun _ _ => id) stepped counted

/-- Settles O52: records enter above the highest ordinal, vehicles form with the next sequence number, and a wait begins
where at most three others go on. -/
theorem stepsKeepRecordsInOrder : Obligations.StepsKeepRecordsInOrder := by
  unfold Obligations.StepsKeepRecordsInOrder
  refine ⟨fun s t sound stepped => ?_, fun s t ordered stepped => ?_⟩
  · rw [axlesSound_iff] at sound ⊢
    exact axlesKept_kept.step (fun _ _ => id) stepped sound
  · rw [vehiclesOrdered_iff] at ordered ⊢
    exact listOrdered_kept.step (fun _ _ => id) stepped ordered
end

section
/-! Context, timers and windows follow the states (R18, R47, R55, R99, R101). -/

namespace Sys2Proof.Machine

/-! ## Timers -/

/-- A state of the train in which it lasts (R47). -/
def TrainState.busy (x : TrainState) : Bool := x == .running || x == .standing || x == .ending

/-- A state of the train in which the quiet timer runs (R55). -/
def TrainState.timed (x : TrainState) : Prop := x = .running ∨ x = .standing ∨ x = .ignoring

/-- Context and quiet timer of a train follow its state. -/
structure TrainControl.Follows (c : TrainControl) : Prop where
  ctx : c.ctx.isSome = c.state.busy
  endReason : ∀ x, c.ctx = some x → x.endReason.isSome = (c.state == .ending)
  endScan : ∀ x, c.ctx = some x → x.endScan.isSome = (c.state == .ending)
  quiet : c.quiet.isSome = true ↔ c.state.timed

/-- Context, timers and windows follow the states. -/
structure State.Timed (s : State) : Prop where
  train : s.train.Follows
  windows : s.train.state ≠ .running → ∀ z : Fin 4, s.zones[z].windows = []
  silence : s.rx.silence = s.rx.synced

theorem timersFollow_iff (s : State) : s.TimersFollow ↔ s.Timed := by
  have ends : (s.train.ctx.all fun c =>
      c.endReason.isSome == (s.train.state == .ending) && c.endScan.isSome == (s.train.state == .ending)) = true ↔
      (∀ x, s.train.ctx = some x → x.endReason.isSome = (s.train.state == .ending)) ∧
        ∀ x, s.train.ctx = some x → x.endScan.isSome = (s.train.state == .ending) := by
    cases s.train.ctx <;> simp
  constructor
  · rintro ⟨ctx, both, quiet, windows, silence⟩
    obtain ⟨reason, scan⟩ := ends.1 both
    exact ⟨⟨ctx, reason, scan, quiet⟩, windows, silence⟩
  · rintro ⟨⟨ctx, reason, scan, quiet⟩, windows, silence⟩
    exact ⟨ctx, ends.2 ⟨reason, scan⟩, quiet, windows, silence⟩

theorem TrainControl.Follows.running_or_standing {c : TrainControl} (h : c.Follows)
    (train : c.state = .running ∨ c.state = .standing) :
    c.ctx.isSome = true ∧ ∀ x, c.ctx = some x → x.endReason = none ∧ x.endScan = none := by
  have ctx := h.ctx
  have reason := h.endReason
  have scan := h.endScan
  rcases train with train | train <;> rw [train] at ctx reason scan <;>
    exact ⟨ctx, fun x held =>
      ⟨Option.isSome_eq_false_iff.1 (reason x held) |> Option.isNone_iff_eq_none.1,
        Option.isSome_eq_false_iff.1 (scan x held) |> Option.isNone_iff_eq_none.1⟩⟩

/-- A train that runs or stands, the timer running. -/
theorem TrainControl.Follows.withState {c : TrainControl} (h : c.Follows)
    (train : c.state = .running ∨ c.state = .standing) {x : TrainState} (next : x = .running ∨ x = .standing) (t : Scan) :
    TrainControl.Follows { c with state := x, quiet := some t } := by
  obtain ⟨ctx, ends⟩ := h.running_or_standing train
  rcases next with rfl | rfl
  · exact ⟨ctx, fun c held => by rw [(ends c held).1]; rfl, fun c held => by rw [(ends c held).2]; rfl,
      ⟨fun _ => .inl rfl, fun _ => rfl⟩⟩
  · exact ⟨ctx, fun c held => by rw [(ends c held).1]; rfl, fun c held => by rw [(ends c held).2]; rfl,
      ⟨fun _ => .inr (.inl rfl), fun _ => rfl⟩⟩

/-- No train: the timer runs in IGNORING. -/
theorem TrainControl.follows_of_none {c : TrainControl} (ctx : c.ctx = none)
    (state : (c.state = .idle ∧ c.quiet = none) ∨ (c.state = .ignoring ∧ c.quiet.isSome = true)) : c.Follows := by
  refine ⟨?_, fun x held => ?_, fun x held => ?_, ?_⟩
  · rw [ctx]
    rcases state with ⟨state, -⟩ | ⟨state, -⟩ <;> rw [state] <;> rfl
  · exact nomatch ctx.symm.trans held
  · exact nomatch ctx.symm.trans held
  · rcases state with ⟨state, quiet⟩ | ⟨state, quiet⟩ <;> simp [state, quiet, TrainState.timed]

theorem TrainControl.Follows.ctx_none {c : TrainControl} (h : c.Follows) (state : c.state = .idle ∨ c.state = .ignoring) :
    c.ctx = none := by
  have ctx := h.ctx
  rcases state with state | state <;> rw [state] at ctx <;>
    exact Option.isNone_iff_eq_none.1 (Option.isSome_eq_false_iff.1 ctx)

/-- A count that the train context keeps of its axles leaves the context in place. -/
theorem State.Timed.context {s : State} (h : s.Timed) {f : TrainContext → TrainContext}
    (reason : ∀ x : TrainContext, (f x).endReason = x.endReason) (scan : ∀ x : TrainContext, (f x).endScan = x.endScan) :
    (modifyCtx f s).Timed := by
  refine ⟨⟨?_, fun y held => ?_, fun y held => ?_, h.train.quiet⟩, h.windows, h.silence⟩
  · rw [← show _ = (modifyCtx f s).train.state.busy from h.train.ctx]
    exact Option.isSome_map ..
  · obtain ⟨x, before, rfl⟩ := Option.map_eq_some_iff.1 held
    rw [reason]
    exact h.train.endReason x before
  · obtain ⟨x, before, rfl⟩ := Option.map_eq_some_iff.1 held
    rw [scan]
    exact h.train.endScan x before

theorem emptyWindows_get (s : State) (z : Fin 4) : (emptyWindows s).zones[z].windows = [] := by
  rw [emptyWindows, mapZones_get]
  rfl

theorem Act.timed {s t : State} (h : Act s t) (k : s.Timed) : t.Timed := by
  cases h with
  | receive r silence => exact { k with silence := silence k.silence }
  | context f continues => exact k.context (fun x => (continues x).endReason) fun x => (continues x).endScan
  | quiet x runs => exact { k with train := { k.train with quiet := ⟨fun _ => runs, fun _ => rfl⟩ } }
  | ignored n => exact { k with train := { k.train with } }
  | run x train => exact { k with train := k.train.withState train (.inl rfl) x, windows := fun other => absurd rfl other }
  | stand x train windows => exact { k with train := k.train.withState (.inl train) (.inr rfl) x, windows := fun _ => windows }
  | finish reason train =>
    obtain ⟨ctx, -⟩ := k.train.running_or_standing train
    refine { k with windows := fun _ => emptyWindows_get _, train := ⟨?_, fun y held => ?_, fun y held => ?_, ?_⟩ }
    · exact (Option.isSome_map ..).trans ctx
    · obtain ⟨x, -, rfl⟩ := Option.map_eq_some_iff.1 held
      rfl
    · obtain ⟨x, -, rfl⟩ := Option.map_eq_some_iff.1 held
      rfl
    · exact ⟨fun none => (nomatch none), by rintro (t | t | t) <;> cases t⟩
  | ignore x n train =>
    refine { k with windows := fun _ => k.windows (by rw [train]; decide), train := ?_ }
    exact TrainControl.follows_of_none (k.train.ctx_none (.inl train)) (.inr ⟨rfl, rfl⟩)
  | rest train =>
    refine { k with windows := fun _ => k.windows (by rw [train]; decide), train := ?_ }
    exact TrainControl.follows_of_none (k.train.ctx_none (.inr train)) (.inl ⟨rfl, rfl⟩)
  | dispose again train =>
    refine { k with windows := fun _ => k.windows (by rw [train]; decide), train := ?_ }
    refine TrainControl.follows_of_none rfl ?_
    cases again
    · exact .inl ⟨rfl, rfl⟩
    · exact .inr ⟨rfl, rfl⟩
  | zones zs kept =>
    refine { k with windows := fun other z => ?_ }
    rcases (kept z).windows with none | held | running
    · exact none
    · exact absurd (k.windows other z) held
    · exact absurd running other
  | enter a new ordinals room train ordinal sound =>
    exact { k.context (f := fun c => { c with entries := c.entries + 1 }) (fun _ => rfl) fun _ => rfl with }
  | reEnter held =>
    exact { k.context (f := fun c => { c with entries := c.entries + 1 }) (fun _ => rfl) fun _ => rfl with }
  | backOut on =>
    exact { k.context (f := fun c => { c with backouts := c.backouts + 1 }) (fun _ => rfl) fun _ => rfl with }
  | exit on =>
    exact { k.context (f := fun c => { c with exits := c.exits + 1 }) (fun _ => rfl) fun _ => rfl with }
  | comeBack cleared =>
    exact { k.context (f := fun c => { c with returns := c.returns + 1 }) (fun _ => rfl) fun _ => rfl with }
  | _ => exact { k with }

theorem Changed.timed {r : Request} {s t : State} (h : Changed r s t) (k : s.Timed) : t.Timed := by
  cases h with
  | channel _ _ ch rec _ =>
    exact { k with windows := fun other z => (reloadChannel_windows ch rec s z).trans (k.windows other z) }
  | appended e room acts _ => exact acts.keep Act.timed { k with }
  | aborted train => exact (abortWith_acts _ train).keep Act.timed k
  | restarted _ _ =>
    exact ⟨TrainControl.follows_of_none rfl (.inl ⟨rfl, rfl⟩), fun _ => reloadZones_windows _, k.silence⟩
  | _ => exact { k with }

theorem timed_kept : Kept State.Timed where
  act := Act.timed
  start d s idle _ k :=
    ⟨⟨rfl, by rintro x ⟨⟩; rfl, by rintro x ⟨⟩; rfl, ⟨fun _ => .inl rfl, fun _ => rfl⟩⟩, fun other => absurd rfl other,
      k.silence⟩
  reset s _ :=
    ⟨TrainControl.follows_of_none rfl (.inl ⟨rfl, rfl⟩),
      fun _ => (by decide : ∀ z : Fin 4, State.reset.zones[z].windows = []), rfl⟩
  load b s _ k := by
    obtain ⟨train, -, -, rx⟩ := loadStore_train b s
    refine ⟨?_, fun _ => reloadZones_windows _, ?_⟩
    · simpa only [evaluateReadiness_train, reloadZones_train, train] using k.train
    · simpa only [evaluateReadiness_rx, reloadZones_rx, rx] using k.silence
  serve r rest s t _ served k := by
    cases served with
    | answered change _ _ => exact { change.timed { k with } with }
    | committed _ _ _ _ => exact { k with }
  complete b tag s _ k := by cases b <;> exact { k with }
  calEn _ _ k := { k with }
  hold _ _ k := { k with }
  ended _ k := { k with }
  chosen x _ _ k := by cases x <;> exact { k with }

end Sys2Proof.Machine

open Sys2Proof Sys2Proof.Machine

/-- Settles O53: a train starts, stands, ends and is disposed of with its context and its timer, and a zone takes up
windows in a RUNNING train alone. -/
theorem stepsKeepTimersWithTheirStates : Obligations.StepsKeepTimersWithTheirStates := by
  unfold Obligations.StepsKeepTimersWithTheirStates
  intro s t timed stepped
  rw [timersFollow_iff] at timed ⊢
  exact timed_kept.step (fun _ _ k => { k with }) stepped timed
end

section
/-! The working tables, readiness, and the channels without a record (R8, R11, R81, R82, R115 to R117, R124 to R126). -/

namespace Sys2Proof.Machine

/-! ## Channels by number, and by zone and rail (R2) -/

@[simp] theorem channelOf_zone_rail (ch : Fin 8) : channelOf (channelZone ch) (channelRail ch) = ch := by
  revert ch
  decide

@[simp] theorem channelZone_channelOf (z : Fin 4) (r : Rail) : channelZone (channelOf z r) = z := by
  revert z
  cases r <;> decide

@[simp] theorem channelRail_channelOf (z : Fin 4) (r : Rail) : channelRail (channelOf z r) = r := by
  revert z
  cases r <;> decide

theorem channelOf_eq_iff (z : Fin 4) (r : Rail) (ch : Fin 8) :
    channelOf z r = ch ↔ z = channelZone ch ∧ r = channelRail ch := by
  constructor
  · rintro rfl
    simp
  · rintro ⟨rfl, rfl⟩
    simp

/-- R81: the reload of a channel touches no other. -/
theorem reloadChannel_channel (ch : Fin 8) (rec : ChannelRecord) (s : State) (z : Fin 4) (r : Rail) :
    (reloadChannel ch rec s).zones[z].channel r =
      if channelOf z r = ch then Channel.rewritten rec (s.zones[z].channel r) else s.zones[z].channel r := by
  unfold reloadChannel
  rw [setZone_get]
  simp only [channelOf_eq_iff]
  by_cases zone : z = channelZone ch
  · subst zone
    rw [if_pos rfl, ZoneUnit.setChannel_channel]
    by_cases rail : r = channelRail ch
    · subst rail
      simp
    · simp [rail]
  · simp [zone]

theorem reloadZones_channel (s : State) (z : Fin 4) (r : Rail) :
    (reloadZones s).zones[z].channel r = Channel.reloaded s.cal.channels[channelOf z r] := by
  rw [reloadZones, mapZones_get]
  cases r <;> rfl

/-! ## What a good image gives back (R124, R185) -/

theorem zoneSpans_length (p : List Byte) : (zoneSpans p).length = p.length / 4 := by
  fun_induction zoneSpans p with
  | case1 a b c d rest ih =>
    simp only [List.length_cons, ih]
    omega
  | case2 p short =>
    match p, short with
    | [], _ => rfl
    | [_], _ => simp
    | [_, _], _ => simp
    | [_, _, _], _ => simp
    | a :: b :: c :: d :: rest, short => exact absurd rfl (short a b c d rest)

/-- A parsed Geometry Record has as many zones as its payload has entries. -/
theorem parseGeometry_zones {p : List Byte} {g : GeometryRecord} (h : parseGeometry p = some g) :
    p.length = 11 + 4 * g.zones.length := by
  unfold parseGeometry at h
  dsimp only at h
  split at h
  next shape =>
    cases h
    dsimp only
    rw [zoneSpans_length, List.length_drop]
    omega
  · cases h

theorem imageChannel_passes {p : List Byte} {c : ChannelRecord} (h : imageChannel p = some (some c)) :
    channelFault c = none := by
  unfold imageChannel at h
  split at h
  · cases h
  · split at h
    next passes =>
      cases h
      exact passes.2
    · cases h

theorem imageChannels_get {p : List Byte} {cs : Vector (Option ChannelRecord) 8} (h : imageChannels p = some cs)
    (ch : Fin 8) : imageChannel (p.drop (14 * ch.val)) = some cs[ch] := by
  unfold imageChannels at h
  split at h
  next a b c d e f g k ha hb hc hd he hf hg hk =>
    cases h
    match ch with
    | 0 => exact ha
    | 1 => exact hb
    | 2 => exact hc
    | 3 => exact hd
    | 4 => exact he
    | 5 => exact hf
    | 6 => exact hg
    | 7 => exact hk
  · cases h

/-- The tables of a good image pass their checks (R124). -/
theorem parseImage_passes {bytes : List Byte} {t : ImageTables} (h : parseImage bytes = some t) :
    geometryFault t.limits.minZones t.geometry = none ∧ curveFault t.curve = none ∧
      limitsFault t.geometry.zones.length t.limits = none ∧
        ∀ (ch : Fin 8) (c : ChannelRecord), t.channels[ch] = some c → channelFault c = none := by
  unfold parseImage at h
  dsimp only at h
  split at h
  next shape =>
    split at h
    next g cs geometry channels =>
      split at h
      next passes =>
        cases h
        have zones := parseGeometry_zones geometry
        rw [List.length_take, shape.1] at zones
        have same : natAt bytes 0 1 = g.zones.length := by omega
        refine ⟨passes.1, passes.2.1, same ▸ passes.2.2, fun ch c held => ?_⟩
        exact imageChannel_passes (held ▸ imageChannels_get channels ch)
      · cases h
    · cases h
  · cases h

/-! ## The checks that two tables share (R8, R117) -/

theorem geometryFault_congr {m n : Nat} {g : GeometryRecord} (h : geometryFault m g = none) (fits : n ≤ g.zones.length) :
    geometryFault n g = none := by
  unfold geometryFault geometryChecks at h ⊢
  rw [firstFailing_eq_none] at h ⊢
  simp only [List.cons_append, List.forall_mem_cons] at h ⊢
  exact ⟨h.1, by simpa using fits, h.2.2⟩

theorem minZones_le_of_geometryFault {m : Nat} {g : GeometryRecord} (h : geometryFault m g = none) :
    m ≤ g.zones.length := by
  unfold geometryFault geometryChecks at h
  rw [firstFailing_eq_none] at h
  simp only [List.cons_append, List.forall_mem_cons] at h
  simpa using h.2.1

theorem limitsFault_congr {y z : Nat} {l : Limits} (h : limitsFault y l = none) (fits : l.minZones ≤ z) :
    limitsFault z l = none := by
  unfold limitsFault at h ⊢
  rw [firstFailing_eq_none] at h ⊢
  simp only [List.forall_mem_cons, inRange, Bool.and_eq_true, decide_eq_true_eq] at h ⊢
  obtain ⟨trim, min, ⟨least, -⟩, rest⟩ := h
  exact ⟨trim, min, ⟨least, fits⟩, rest⟩

theorem minZones_le_of_limitsFault {z : Nat} {l : Limits} (h : limitsFault z l = none) : l.minZones ≤ z := by
  unfold limitsFault at h
  rw [firstFailing_eq_none] at h
  simp only [List.forall_mem_cons, inRange, Bool.and_eq_true, decide_eq_true_eq] at h
  obtain ⟨-, -, ⟨-, most⟩, -⟩ := h
  exact most

/-! ## The tables of the part -/

/-- The working tables pass their checks (R8, R9, R115 to R117). -/
structure Calibration.Passes (c : Calibration) : Prop where
  geometry : ∀ g, c.geometry = some g → geometryFault c.limits.minZones g = none
  channels : ∀ (ch : Fin 8) (x : ChannelRecord), c.channels[ch] = some x → channelFault x = none
  curve : ∀ k, c.curve = some k → curveFault k = none
  limits : limitsFault c.maxMinZones c.limits = none

/-- A channel without a partial block and without a presence run. -/
structure Channel.Bare (c : Channel) : Prop where
  blockCount : c.blockCount = 0
  blockSum : c.blockSum = 0
  run : c.run = none

/-- The tables pass, readiness follows them, and a channel without a record has gathered nothing. -/
structure State.Tabled (s : State) : Prop where
  passes : s.cal.Passes
  part : s.part ≠ .starting → (s.part = .ready ↔ s.cal.ready = true)
  bare : ∀ (z : Fin 4) (r : Rail), s.cal.channels[channelOf z r] = none → (s.zones[z].channel r).Bare

theorem Channel.bare_iff (c : Channel) : c = { c with blockCount := 0, blockSum := 0, run := none } ↔ c.Bare := by
  constructor
  · intro h
    rw [h]
    exact ⟨rfl, rfl, rfl⟩
  · rintro ⟨count, sum, run⟩
    cases c
    cases count
    cases sum
    cases run
    rfl

theorem tablesSound_iff (s : State) : s.TablesSound ↔ s.Tabled := by
  constructor
  · rintro ⟨geometry, channels, curve, limits, part, bare⟩
    refine ⟨⟨fun g held => ?_, fun ch x held => ?_, fun k held => ?_, limits⟩, part, fun z r absent => ?_⟩
    · simpa [held] using geometry
    · simpa [held] using channels ch
    · simpa [held] using curve
    · have := bare (channelOf z r) absent
      rw [Channel.bare_iff] at this
      simpa using this
  · rintro ⟨⟨geometry, channels, curve, limits⟩, part, bare⟩
    refine ⟨?_, fun ch => ?_, ?_, limits, part, fun ch absent => ?_⟩
    · cases held : s.cal.geometry with
      | none => rfl
      | some g => simpa using geometry g held
    · cases held : s.cal.channels[ch] with
      | none => rfl
      | some x => simpa using channels ch x held
    · cases held : s.cal.curve with
      | none => rfl
      | some k => simpa using curve k held
    · rw [Channel.bare_iff]
      refine bare _ _ ?_
      simpa only [channelOf_zone_rail] using absent

/-- Another zone state, the channels without a record as they stood. -/
theorem State.Tabled.zones {s : State} (h : s.Tabled) {zs : Vector ZoneUnit 4}
    (channel : ∀ (z : Fin 4) (r : Rail), s.cal.channels[channelOf z r] = none → zs[z].channel r = s.zones[z].channel r) :
    State.Tabled { s with zones := zs } :=
  { h with
    bare := fun z r absent => by
      show (zs[z].channel r).Bare
      rw [channel z r absent]
      exact h.bare z r absent }

theorem Act.tabled {s t : State} (h : Act s t) (k : s.Tabled) : t.Tabled := by
  cases h with
  | zones zs kept => exact k.zones fun z r absent => (kept z).channel r absent
  | finish reason train =>
    refine { k with bare := fun z r absent => ?_ }
    rw [emptyWindows, mapZones_get, ZoneUnit.empty_channel]
    exact k.bare z r absent
  | _ => exact { k with }

/-- Tables written that pass their checks. -/
theorem Calibration.Passes.tabled {s : State} {f : Calibration → Calibration} (h : (f s.cal).Passes)
    (bare : ∀ (z : Fin 4) (r : Rail), (f s.cal).channels[channelOf z r] = none → (s.zones[z].channel r).Bare) :
    (changeTables f s).Tabled := by
  refine ⟨{ h with }, fun _ => ?_, bare⟩
  unfold changeTables evaluateReadiness
  dsimp only
  split
  next ready => exact ⟨fun _ => ready, fun _ => rfl⟩
  next unready => exact ⟨fun no => (nomatch no), fun ready => absurd ready unready⟩

theorem Changed.tabled {r : Request} {s t : State} (h : Changed r s t) (k : s.Tabled) : t.Tabled := by
  have passes := k.passes
  cases h with
  | geometry _ _ g checked =>
    refine Calibration.Passes.tabled { passes with geometry := ?_, limits := ?_ } k.bare
    · rintro g ⟨⟩
      exact checked
    · exact limitsFault_congr passes.limits (minZones_le_of_geometryFault checked)
  | channel _ _ ch rec checked =>
    refine Calibration.Passes.tabled (s := reloadChannel ch rec s)
      { passes with channels := fun i x held => ?_ } fun z r absent => ?_
    · rcases eq_or_ne i ch with rfl | other
      · simp only [reloadChannel_cal, Fin.getElem_fin, Vector.getElem_set_self, Option.some.injEq] at held
        exact held ▸ checked
      · refine passes.channels i x ?_
        simpa only [reloadChannel_cal, Fin.getElem_fin, Vector.getElem_set_ne _ _ (Fin.val_ne_of_ne other.symm)] using held
    · have other : channelOf z r ≠ ch := by
        rintro rfl
        simp at absent
      rw [reloadChannel_channel, if_neg other]
      refine k.bare z r ?_
      simpa only [reloadChannel_cal, Fin.getElem_fin, Vector.getElem_set_ne _ _ (Fin.val_ne_of_ne other.symm)] using absent
  | curve _ _ c checked =>
    refine Calibration.Passes.tabled { passes with curve := ?_ } k.bare
    rintro c ⟨⟩
    exact checked
  | limits _ _ l checked =>
    refine Calibration.Passes.tabled { passes with geometry := fun g held => ?_, limits := checked } k.bare
    refine geometryFault_congr (passes.geometry g held) ?_
    have := minZones_le_of_limitsFault checked
    change s.cal.geometry = some g at held
    simpa [Calibration.maxMinZones, held] using this
  | appended e room acts _ => exact acts.keep Act.tabled { k with }
  | aborted train => exact (abortWith_acts _ train).keep Act.tabled k
  | restarted _ _ =>
    refine { k with bare := fun z r absent => ?_ }
    unfold restartBlocks zeroCounters
    dsimp only
    rw [reloadZones_channel]
    exact ⟨rfl, rfl, rfl⟩
  | _ => exact { k with }

theorem Calibration.passes_reset (n : Nat) : Calibration.Passes { Calibration.reset with counter := n } where
  geometry _ held := nomatch held
  channels ch x held :=
    nomatch ((by decide : ∀ i : Fin 8, Calibration.reset.channels[i] = none) ch).symm.trans held
  curve _ held := nomatch held
  limits := (by decide : limitsFault 4 Limits.default = none)

/-- R125: what the load takes passes its checks. -/
theorem loadStore_passes (b : Bool) (s : State) : (loadStore b s).cal.Passes := by
  unfold loadStore
  dsimp only
  split
  next t good =>
    have parsed : ∃ bytes, parseImage bytes = some t := by
      unfold StoreImage.judge at good
      split at good
      · cases good
      · split at good
        · cases good
        next bytes stored =>
          split at good
          next held =>
            cases good
            exact ⟨bytes, held⟩
          · cases good
        · cases good
        · cases good
    obtain ⟨bytes, parsed⟩ := parsed
    obtain ⟨geometry, curve, limits, channels⟩ := parseImage_passes parsed
    exact ⟨by rintro g ⟨⟩; exact geometry, channels, by rintro k ⟨⟩; exact curve, limits⟩
  · exact Calibration.passes_reset _
  · exact Calibration.passes_reset _

/-- After the load every channel is bare, and readiness is evaluated (R81, R125). -/
theorem loaded_tabled (b : Bool) (s : State) : (evaluateReadiness (reloadZones (loadStore b s))).Tabled := by
  have passes := loadStore_passes b s
  generalize loadStore b s = m at passes
  refine ⟨passes, fun _ => ?_, fun z r _ => ?_⟩
  · show (if m.cal.ready then PartState.ready else .notReady) = .ready ↔ m.cal.ready = true
    split
    next ready => exact ⟨fun _ => ready, fun _ => rfl⟩
    next unready => exact ⟨fun no => (nomatch no), fun ready => absurd ready unready⟩
  · have := reloadZones_channel m z r
    simp only [evaluateReadiness_zones]
    rw [this]
    exact ⟨rfl, rfl, rfl⟩

theorem tabled_kept : Kept State.Tabled where
  act := Act.tabled
  start _ _ _ _ k := { k with }
  reset s k :=
    ⟨Calibration.passes_reset _, fun started => absurd rfl started, fun z r _ => by
      have bare : ∀ z : Fin 4, State.reset.zones[z] = ZoneUnit.reset := by decide
      show (State.reset.zones[z].channel r).Bare
      rw [bare]
      cases r <;> exact ⟨rfl, rfl, rfl⟩⟩
  load b s _ _ := loaded_tabled b s
  serve r rest s t _ served k := by
    cases served with
    | answered change _ _ => exact { change.tabled { k with } with }
    | committed _ _ _ _ => exact { k with passes := { k.passes with } }
  complete b tag s _ k := by cases b <;> exact { k with passes := { k.passes with } }
  calEn _ _ k := { k with }
  hold _ _ k := { k with }
  ended _ k := { k with }
  chosen x _ _ k := by cases x <;> exact { k with }

end Sys2Proof.Machine

open Sys2Proof Sys2Proof.Machine

/-- Settles O54: a table is replaced only by one that passes beside the other tables, and every replacement is followed by
the evaluation of readiness. -/
theorem stepsKeepTablesAndReadinessSound : Obligations.StepsKeepTablesAndReadinessSound := by
  unfold Obligations.StepsKeepTablesAndReadinessSound
  intro s t sound stepped
  rw [tablesSound_iff] at sound ⊢
  exact tabled_kept.step (fun _ _ k => { k with }) stepped sound
end

section
/-! Rules of the whole machine: counter and notices, tables under protection, the train's identity, the counters, scan time
and the hold (R10, R47 to R51, R118, R120, R158, R162, R163, R177). -/

namespace Sys2Proof.Machine

/-! ## What acts and requests leave alone -/

/-- The part, its inputs, its tables and its store stand. -/
structure SameCore (s t : State) : Prop where
  part : t.part = s.part
  calEn : t.calEn = s.calEn
  hold : t.hold = s.hold
  cal : t.cal = s.cal
  store : t.store = s.store
  pending : t.pending = s.pending

theorem SameCore.refl (s : State) : SameCore s s := ⟨rfl, rfl, rfl, rfl, rfl, rfl⟩

theorem SameCore.trans {s t u : State} (h : SameCore s t) (k : SameCore t u) : SameCore s u :=
  ⟨k.part.trans h.part, k.calEn.trans h.calEn, k.hold.trans h.hold, k.cal.trans h.cal, k.store.trans h.store,
    k.pending.trans h.pending⟩

theorem Act.sameCore {s t : State} (h : Act s t) : SameCore s t := by cases h <;> exact ⟨rfl, rfl, rfl, rfl, rfl, rfl⟩

theorem Acts.sameCore {s t : State} (h : Acts s t) : SameCore s t :=
  h.keep (P := SameCore s) (fun act same => same.trans act.sameCore) (.refl s)

theorem Begins.sameCore {s t : State} (h : Begins s t) : SameCore s t := by
  rcases h with acts | ⟨m, d, before, -, -, -, -, -, after⟩
  · exact acts.sameCore
  · exact before.sameCore.trans ((⟨rfl, rfl, rfl, rfl, rfl, rfl⟩ : SameCore m (startTrain d m)).trans after.sameCore)

theorem Begins.sending {s t : State} (h : Begins s t) : t.link.sending = s.link.sending := by
  rcases h with acts | ⟨m, d, before, -, -, -, -, -, after⟩
  · exact acts.sending
  · exact after.sending.trans before.sending

theorem startChosen_sameCore (x : Choice) (s : State) : SameCore s (startChosen x s) := by
  cases x <;> exact ⟨rfl, rfl, rfl, rfl, rfl, rfl⟩

/-- A change by a request stands by the inputs and the counter word. -/
theorem Changed.inputs {r : Request} {s t : State} (h : Changed r s t) :
    t.hold = s.hold ∧ t.pending = s.pending ∧ t.store = s.store ∧ t.cal.counter = s.cal.counter := by
  cases h with
  | appended e room acts _ =>
    have same := acts.sameCore
    exact ⟨same.hold, same.pending, same.store, congrArg Calibration.counter same.cal⟩
  | aborted train =>
    have same := (abortWith_acts .request train).sameCore
    exact ⟨same.hold, same.pending, same.store, congrArg Calibration.counter same.cal⟩
  | _ => exact ⟨rfl, rfl, rfl, rfl⟩

theorem Changed.rx {r : Request} {s t : State} (h : Changed r s t) : t.rx = s.rx := by
  cases h with
  | appended e room acts rx => exact rx
  | aborted train => exact (abortWith_weighing _ s).rx
  | _ => rfl

theorem Served.rx {r : Request} {s t : State} (h : Served r s t) : t.rx = s.rx := by
  cases h with
  | answered change _ _ => exact change.rx
  | committed _ _ _ _ => rfl

theorem Served.hold {r : Request} {s t : State} (h : Served r s t) : t.hold = s.hold := by
  cases h with
  | answered change _ _ => exact change.inputs.1
  | committed _ _ _ _ => rfl

theorem Served.pending {r : Request} {s t : State} (h : Served r s t) : t.pending = s.pending := by
  cases h with
  | answered change _ _ => exact change.inputs.2.1
  | committed _ _ _ _ => rfl

theorem HandedOn.pending {s t : State} (h : HandedOn s t) : t.pending = s.pending := by
  cases h with
  | nothing => rfl
  | acts acts _ => exact acts.sameCore.pending
  | serve _ _ _ served => exact served.pending

theorem loadStore_pending (b : Bool) (s : State) : (loadStore b s).pending = s.pending := by
  unfold loadStore
  dsimp only
  split <;> rfl

/-- No command touches the commands that wait behind it. -/
theorem Ran.pending {c : Instr} {s t : State} (h : Ran c s t) : t.pending = s.pending := by
  cases h with
  | bounded effect =>
    rw [boundary_pending]
    cases effect with
    | begins b _ => exact b.sameCore.pending
    | load b _ => exact loadStore_pending b s
    | serve _ _ _ served => exact served.pending
    | complete b _ _ => cases b <;> rfl
    | calEn _ => rfl
  | endedOn _ _ _ x _ handed => exact handed.pending.trans (startChosen_sameCore x _).pending
  | releasedOn _ _ _ x _ handed => exact handed.pending.trans (startChosen_sameCore x _).pending
  | _ => rfl

theorem HandedOn.rx {s t : State} (h : HandedOn s t) : t.rx = s.rx := by
  cases h with
  | nothing => rfl
  | acts _ rx => exact rx
  | serve _ _ _ served => exact served.rx

theorem HandedOn.hold {s t : State} (h : HandedOn s t) : t.hold = s.hold := by
  cases h with
  | nothing => rfl
  | acts acts _ => exact acts.sameCore.hold
  | serve _ _ _ served => exact served.hold

/-! ## The counter word (R120) -/

/-- The working counter is the store word. -/
structure State.Agreeing (s : State) : Prop where
  word : s.store.word.getD 0 = s.cal.counter
  most : s.cal.counter ≤ 65535

theorem State.Agreeing.of_eq {s t : State} (h : s.Agreeing) (word : t.store.word = s.store.word)
    (counter : t.cal.counter = s.cal.counter) : t.Agreeing := by
  refine ⟨?_, ?_⟩
  · rw [word, counter]
    exact h.word
  · rw [counter]
    exact h.most

theorem loadStore_counter (b : Bool) (s : State) :
    (loadStore b s).store = s.store ∧ (loadStore b s).cal.counter = s.store.word.getD 0 := by
  unfold loadStore
  dsimp only
  split <;> exact ⟨rfl, rfl⟩

theorem completeCommit_counter (b : Bool) (tag : Byte) (s : State) :
    (completeCommit b tag s).store.word = s.store.word ∧ (completeCommit b tag s).cal.counter = s.cal.counter := by
  cases b <;> exact ⟨rfl, rfl⟩

/-- A step of the counter: it stands, or an accepted commit counts. -/
structure Recounted (s t : State) : Prop where
  agreeing : t.Agreeing
  least : s.cal.counter ≤ t.cal.counter
  most : t.cal.counter ≤ s.cal.counter + 1

theorem Recounted.of_eq {s t : State} (h : s.Agreeing) (word : t.store.word = s.store.word)
    (counter : t.cal.counter = s.cal.counter) : Recounted s t :=
  ⟨h.of_eq word counter, counter.ge, counter.le.trans (Nat.le_succ _)⟩

theorem SameCore.recounted {s t : State} (k : SameCore s t) (h : s.Agreeing) : Recounted s t :=
  .of_eq h (congrArg Store.word k.store) (congrArg Calibration.counter k.cal)

/-- What is recounted from a state of the same counter. -/
theorem Recounted.congr {s s' t : State} (h : Recounted s' t) (counter : s'.cal.counter = s.cal.counter) :
    Recounted s t := ⟨h.agreeing, counter ▸ h.least, counter ▸ h.most⟩

theorem Served.recounted {r : Request} {s t : State} (h : Served r s t) (k : s.Agreeing) : Recounted s t := by
  cases h with
  | answered change _ _ =>
    obtain ⟨-, -, store, counter⟩ := change.inputs
    exact .of_eq k (congrArg Store.word store) counter
  | committed _ room _ _ => exact ⟨⟨rfl, room⟩, Nat.le_succ _, le_rfl⟩

theorem HandedOn.recounted {s t : State} (h : HandedOn s t) (k : s.Agreeing) : Recounted s t := by
  cases h with
  | nothing => exact .of_eq k rfl rfl
  | acts acts _ => exact acts.sameCore.recounted k
  | serve r rest _ served => exact (served.recounted { k with }).congr rfl

theorem Effect.recounted {c : Instr} {s t : State} (h : Effect c s t) (k : s.Agreeing) : Recounted s t := by
  cases h with
  | begins b _ => exact b.sameCore.recounted k
  | load b _ =>
    obtain ⟨store, counter⟩ := loadStore_counter b s
    refine .of_eq k ?_ ?_
    · simp only [evaluateReadiness_store, reloadZones_store, store]
    · simp only [evaluateReadiness_cal, reloadZones_cal, counter]
      exact k.word
  | serve r rest _ served => exact (served.recounted { k with }).congr rfl
  | complete b tag _ => exact .of_eq k (completeCommit_counter b tag s).1 (completeCommit_counter b tag s).2
  | calEn _ => exact .of_eq k rfl rfl

theorem Ran.recounted {c : Instr} {s t : State} (h : Ran c s t) (k : s.Agreeing) : Recounted s t := by
  cases h with
  | reset _ => exact .of_eq k rfl rfl
  | @bounded m effect =>
    have counted := effect.recounted k
    refine ⟨counted.agreeing.of_eq ?_ ?_, ?_, ?_⟩
    · rw [boundary_store]
    · rw [boundary_cal]
    · rw [boundary_cal]
      exact counted.least
    · rw [boundary_cal]
      exact counted.most
  | endedOn _ _ _ x _ handed =>
    have same := startChosen_sameCore x (endFrame s)
    exact (handed.recounted (same.recounted { k with }).agreeing).congr (congrArg Calibration.counter same.cal)
  | releasedOn _ _ _ x _ handed =>
    have same := startChosen_sameCore x { s with hold := false }
    exact (handed.recounted (same.recounted { k with }).agreeing).congr (congrArg Calibration.counter same.cal)
  | _ => exact .of_eq k rfl rfl

/-! ## The notice register (R162, R163) -/

/-- An entry of the notice register at a level. -/
structure NoticeEntry.Sound (level : Nat) (e : NoticeEntry) : Prop where
  low : level ≤ 7
  few : e.count ≤ 255
  marked : e.pending = true → level ≠ 0 ∧ 1 ≤ e.count

/-- Every entry of the register is sound. -/
def NoticeUnit.Sound (u : NoticeUnit) : Prop := ∀ i : Fin 16, NoticeEntry.Sound u.levels[i] u.register[i]

theorem noticesSound_iff (s : State) : s.NoticesSound ↔ s.notices.Sound :=
  forall_congr' fun _ => ⟨fun ⟨a, b, c⟩ => ⟨a, b, c⟩, fun ⟨a, b, c⟩ => ⟨a, b, c⟩⟩

/-- A register with one entry replaced by a sound one. -/
theorem NoticeUnit.Sound.set {u : NoticeUnit} (h : u.Sound) {i : Fin 16} {e : NoticeEntry}
    (sound : NoticeEntry.Sound u.levels[i] e) : NoticeUnit.Sound { u with register := u.register.set i e } := by
  intro j
  rcases eq_or_ne j i with rfl | other
  · simpa using sound
  · simpa [Vector.getElem_set_ne _ _ (Fin.val_ne_of_ne other.symm)] using h j

theorem NoticeUnit.Sound.raise {u : NoticeUnit} (h : u.Sound) (k : NoticeKind) (n : Nat) : (u.raise k n).Sound := by
  have entry := h k.index
  refine h.set ⟨entry.low, Nat.min_le_left _ _, fun marked => ⟨?_, ?_⟩⟩
  · intro zero
    have unmarked : (u.entry k).pending = false := Bool.eq_false_iff.2 fun p => (entry.marked p).1 zero
    have low : u.level k = 0 := zero
    simp [unmarked, low] at marked
  · exact Nat.le_min.2 ⟨by decide, Nat.le_add_left _ _⟩

theorem NoticeUnit.Sound.raises {u : NoticeUnit} (h : u.Sound) (k : NoticeKind) (l : List Nat) : (u.raises k l).Sound := by
  induction l generalizing u with
  | nil => exact h
  | cons n l ih => exact ih (h.raise k n)

theorem NoticeUnit.Sound.cleared {u : NoticeUnit} (h : u.Sound) : u.cleared.Sound := by
  intro i
  have entry := h i
  unfold NoticeUnit.cleared
  simp only [Fin.getElem_fin, Vector.getElem_map]
  exact ⟨entry.low, Nat.zero_le _, fun no => (nomatch no)⟩

theorem NoticeUnit.Sound.writeLevel {u : NoticeUnit} (h : u.Sound) (i : Fin 16) {level : Nat} (low : level ≤ 7) :
    (u.writeLevel i level).Sound := by
  intro j
  have entry := h j
  unfold NoticeUnit.writeLevel
  rcases eq_or_ne j i with rfl | other
  · simp only [Fin.getElem_fin, Vector.getElem_set_self]
    refine ⟨low, entry.few, fun marked => ?_⟩
    dsimp only at marked
    split at marked
    · cases marked
    next positive => exact ⟨positive, (entry.marked marked).2⟩
  · simpa [Vector.getElem_set_ne _ _ (Fin.val_ne_of_ne other.symm)] using entry

theorem NoticeUnit.sound_of_register_reset {u : NoticeUnit} (levels : ∀ i : Fin 16, u.levels[i] ≤ 7)
    (register : u.register = Vector.replicate 16 NoticeEntry.reset) : u.Sound := by
  intro i
  rw [register]
  have reset : (Vector.replicate 16 NoticeEntry.reset)[i] = NoticeEntry.reset := by simp
  rw [reset]
  exact ⟨levels i, Nat.zero_le _, fun no => (nomatch no)⟩

theorem Act.noticed {s t : State} (h : Act s t) (k : s.notices.Sound) : t.notices.Sound := by
  cases h with
  | cause c n => exact k.raise c n
  | count f grows =>
    rw [updateCounters_eq]
    exact k.raises _ _
  | record q _ =>
    unfold placeRecord
    dsimp only
    split
    · exact k.raise _ _
    · exact k
  | _ => exact k

theorem noticed_kept : Kept fun s => s.notices.Sound where
  act := Act.noticed
  start d s _ _ k := k.raise _ _
  reset s _ := NoticeUnit.sound_of_register_reset (by decide : ∀ i : Fin 16, NoticeUnit.defaultLevels[i] ≤ 7) rfl
  load b s _ k := by
    simp only [evaluateReadiness_notices, reloadZones_notices]
    unfold loadStore
    dsimp only
    split
    · exact k
    · exact k
    · exact k.raise _ _
  serve r rest s t _ served k := by
    cases served with
    | committed _ _ _ _ => exact k
    | answered change _ _ =>
      cases change with
      | cleared => exact k.cleared
      | levelled i level low => exact k.writeLevel i low
      | storeFault => exact k.raise _ _
      | appended e room acts _ => exact acts.keep (P := fun s => s.notices.Sound) Act.noticed k
      | aborted train => exact (abortWith_acts _ train).keep (P := fun s => s.notices.Sound) Act.noticed k
      | restarted _ _ => exact NoticeUnit.sound_of_register_reset (fun i => (k i).low) rfl
      | _ => exact k
  complete b tag s _ k := by
    cases b
    · exact k.raise _ _
    · exact k
  calEn _ _ k := k
  hold _ _ k := k
  ended _ k := k
  chosen x s _ k := by
    cases x with
    | notice c => exact k.set ⟨(k c.index).low, Nat.zero_le _, fun no => (nomatch no)⟩
    | _ => exact k

/-! ## The tables (R10, R118) -/

/-- A change of the tables by a request: it is one of the four writes, admitted (R118). -/
theorem Changed.tables {r : Request} {s t : State} (h : Changed r s t) :
    t.cal.tables = s.cal.tables ∨
      s.protection = none ∧ r.code ∈ [codeWriteGeometry, codeWriteChannel, codeWriteSpeedCurve, codeWriteLimits] := by
  cases h with
  | geometry code admitted _ _ => exact .inr ⟨admitted, by simp [code]⟩
  | channel code admitted _ _ _ => exact .inr ⟨admitted, by simp [code]⟩
  | curve code admitted _ _ => exact .inr ⟨admitted, by simp [code]⟩
  | limits code admitted _ _ => exact .inr ⟨admitted, by simp [code]⟩
  | appended e room acts _ => exact .inl (congrArg Calibration.tables acts.sameCore.cal)
  | aborted train => exact .inl (congrArg Calibration.tables (abortWith_acts .request train).sameCore.cal)
  | _ => exact .inl rfl

theorem Served.tables {r : Request} {s t : State} (h : Served r s t) :
    t.cal.tables = s.cal.tables ∨
      s.protection = none ∧ r.code ∈ [codeWriteGeometry, codeWriteChannel, codeWriteSpeedCurve, codeWriteLimits] := by
  cases h with
  | answered change _ _ => exact change.tables
  | committed _ _ _ _ => exact .inl rfl

/-- The tables stand, or a write of one of them was admitted. -/
def TablesStand (s t : State) : Prop :=
  t.cal.tables = s.cal.tables ∨
    s.calEn = true ∧ s.busyTrain = false ∧ s.cal.committing = none ∧
      ∃ r rest,
        s.requests = r :: rest ∧ r.code ∈ [codeWriteGeometry, codeWriteChannel, codeWriteSpeedCurve, codeWriteLimits]

theorem SameCore.tables {s t : State} (h : SameCore s t) : TablesStand s t := .inl (congrArg Calibration.tables h.cal)

theorem TablesStand.of_served {s t : State} {r : Request} {rest : List Request} (ready : s.CanExecute r rest)
    (served : Served r { s with requests := rest } t) : TablesStand s t := by
  refine served.tables.imp id fun ⟨admitted, code⟩ => ?_
  obtain ⟨calEn, idle, free⟩ := (protection_eq_none { s with requests := rest }).1 admitted
  exact ⟨calEn, idle, free, r, rest, ready.2.1, code⟩

theorem HandedOn.tables {s t : State} (h : HandedOn s t) : TablesStand s t := by
  cases h with
  | nothing => exact .inl rfl
  | acts acts _ => exact acts.sameCore.tables
  | serve r rest ready served => exact .of_served ready served

/-- A started frame is no write. -/
theorem TablesStand.of_started {x : Choice} {s t : State} (h : TablesStand (startChosen x s) t) : TablesStand s t := by
  cases x <;> exact h

theorem Ran.tables {c : Instr} {s t : State} (h : Ran c s t) (started : s.part ≠ .starting) (kept : c ≠ .powerOnReset) :
    TablesStand s t := by
  cases h with
  | reset command => exact absurd command kept
  | @bounded m effect =>
    have stand : TablesStand s m := by
      cases effect with
      | begins b _ => exact b.sameCore.tables
      | load _ starting => exact absurd starting started
      | serve r rest ready served => exact .of_served ready served
      | complete b tag _ => cases b <;> exact .inl rfl
      | calEn _ => exact .inl rfl
    unfold TablesStand at stand ⊢
    rwa [boundary_cal]
  | endedOn _ _ _ x _ handed => exact TablesStand.of_started handed.tables
  | releasedOn _ _ _ x _ handed => exact TablesStand.of_started (s := { s with hold := false }) handed.tables
  | _ => exact .inl rfl

/-! ## The identity of a train (R47, R49, R51, R58) -/

/-- From a to b the context is that of the same train, an end once set standing. -/
structure TrainContext.Lasts (a b : TrainContext) : Prop where
  number : b.number = a.number
  direction : b.direction = a.direction
  startScan : b.startScan = a.startScan
  endReason : ∀ e, a.endReason = some e → b.endReason = some e
  endScan : ∀ e, a.endScan = some e → b.endScan = some e

theorem TrainContext.Lasts.refl (a : TrainContext) : a.Lasts a := ⟨rfl, rfl, rfl, fun _ => id, fun _ => id⟩

theorem TrainContext.Lasts.trans {a b c : TrainContext} (h : a.Lasts b) (k : b.Lasts c) : a.Lasts c :=
  ⟨k.number.trans h.number, k.direction.trans h.direction, k.startScan.trans h.startScan,
    fun e held => k.endReason e (h.endReason e held), fun e held => k.endScan e (h.endScan e held)⟩

theorem TrainContext.Continues.lasts {a b : TrainContext} (h : a.Continues b) : a.Lasts b :=
  ⟨h.number, h.direction, h.startScan, fun _ held => h.endReason.trans held, fun _ held => h.endScan.trans held⟩

/-- From c to d a context that is held is that of the train before. -/
def SameTrain (c d : Option TrainContext) : Prop := ∀ b, d = some b → ∃ a, c = some a ∧ a.Lasts b

theorem SameTrain.refl (c : Option TrainContext) : SameTrain c c := fun b held => ⟨b, held, .refl b⟩

theorem SameTrain.trans {c d e : Option TrainContext} (h : SameTrain c d) (k : SameTrain d e) : SameTrain c e := by
  intro x held
  obtain ⟨b, held, later⟩ := k x held
  obtain ⟨a, held, earlier⟩ := h b held
  exact ⟨a, held, earlier.trans later⟩

theorem SameTrain.map {c : Option TrainContext} {f : TrainContext → TrainContext}
    (lasts : ∀ a, c = some a → a.Lasts (f a)) : SameTrain c (c.map f) := by
  intro b held
  obtain ⟨a, before, rfl⟩ := Option.map_eq_some_iff.1 held
  exact ⟨a, before, lasts a before⟩

theorem Act.sameTrain {s t : State} (h : Act s t) (k : s.Timed) : SameTrain s.train.ctx t.train.ctx := by
  cases h with
  | context f continues => exact .map fun a _ => (continues a).lasts
  | finish reason train =>
    obtain ⟨-, ends⟩ := k.train.running_or_standing train
    refine .map fun a held => ⟨rfl, rfl, rfl, fun e ended => ?_, fun e ended => ?_⟩
    · exact nomatch (ends a held).1.symm.trans ended
    · exact nomatch (ends a held).2.symm.trans ended
  | dispose again train => exact fun _ held => nomatch held
  | enter a new ordinals room train ordinal sound => exact .map fun a _ => ⟨rfl, rfl, rfl, fun _ => id, fun _ => id⟩
  | reEnter held => exact .map fun a _ => ⟨rfl, rfl, rfl, fun _ => id, fun _ => id⟩
  | backOut on => exact .map fun a _ => ⟨rfl, rfl, rfl, fun _ => id, fun _ => id⟩
  | exit on => exact .map fun a _ => ⟨rfl, rfl, rfl, fun _ => id, fun _ => id⟩
  | comeBack cleared => exact .map fun a _ => ⟨rfl, rfl, rfl, fun _ => id, fun _ => id⟩
  | _ => exact .refl _

theorem Acts.sameTrain {s t : State} (h : Acts s t) (k : s.Timed) : SameTrain s.train.ctx t.train.ctx :=
  (h.keep (P := fun t => t.Timed ∧ SameTrain s.train.ctx t.train.ctx)
    (fun act ⟨timed, same⟩ => ⟨act.timed timed, same.trans (act.sameTrain timed)⟩) ⟨k, .refl _⟩).2

/-- From s to t the train goes on, or one starts with the next number (R49, R51). -/
def TrainGoesOn (s t : State) : Prop :=
  SameTrain s.train.ctx t.train.ctx ∨
    s.train.ctx = none ∧ s.part = .ready ∧
      ∀ b, t.train.ctx = some b → b.number = s.train.nextNumber ∧ b.startScan = s.rx.time

theorem Begins.train {s t : State} (h : Begins s t) (k : s.Timed) : TrainGoesOn s t := by
  rcases h with acts | ⟨m, d, before, train, rx, part, idle, ready, after⟩
  · exact .inl (acts.sameTrain k)
  · have timed : m.Timed := before.keep Act.timed k
    refine .inr ⟨?_, part ▸ ready, fun b held => ?_⟩
    · exact train ▸ timed.train.ctx_none (.inl idle)
    · obtain ⟨a, ⟨⟩, lasts⟩ := after.sameTrain (timed_kept.start d m idle ready timed) b held
      refine ⟨?_, ?_⟩
      · rw [lasts.number, ← train]
        rfl
      · rw [lasts.startScan, ← rx]
        rfl

theorem Changed.train {r : Request} {s t : State} (h : Changed r s t) (k : s.Timed) :
    SameTrain s.train.ctx t.train.ctx := by
  cases h with
  | appended e room acts _ => exact acts.sameTrain { k with }
  | aborted train => exact (abortWith_acts _ train).sameTrain k
  | restarted _ _ => exact fun _ held => nomatch held
  | _ => exact .refl _

theorem Served.train {r : Request} {s t : State} (h : Served r s t) (k : s.Timed) :
    SameTrain s.train.ctx t.train.ctx := by
  cases h with
  | answered change _ _ => exact change.train k
  | committed _ _ _ _ => exact .refl _

theorem HandedOn.train {s t : State} (h : HandedOn s t) (k : s.Timed) : SameTrain s.train.ctx t.train.ctx := by
  cases h with
  | nothing => exact .refl _
  | acts acts _ => exact acts.sameTrain k
  | serve r rest _ served => exact served.train { k with }

theorem Ran.train {c : Instr} {s t : State} (h : Ran c s t) (k : s.Timed) : TrainGoesOn s t := by
  cases h with
  | reset _ => exact .inl fun _ held => nomatch held
  | @bounded m effect =>
    unfold TrainGoesOn
    rw [boundary_train]
    cases effect with
    | begins b _ => exact b.train k
    | load b _ =>
      refine .inl ?_
      simp only [evaluateReadiness_train, reloadZones_train, (loadStore_train b s).1]
      exact .refl _
    | serve r rest _ served => exact .inl (served.train { k with })
    | complete b tag _ => cases b <;> exact .inl (.refl _)
    | calEn _ => exact .inl (.refl _)
  | endedOn _ _ _ x chosen handed =>
    have started := timed_kept.chosen x (endFrame s) chosen { k with }
    have same : (startChosen x (endFrame s)).train = s.train := by cases x <;> rfl
    exact .inl (same ▸ handed.train started)
  | releasedOn _ _ _ x chosen handed =>
    have started := timed_kept.chosen x { s with hold := false } chosen { k with }
    have same : (startChosen x { s with hold := false }).train = s.train := by cases x <;> rfl
    exact .inl (same ▸ handed.train started)
  | _ => exact .inl (.refl _)

/-! ## The counters (R177) -/

theorem Counter.Grows.trans {a b c : Counter} (h : a.Grows b) (k : b.Grows c) : a.Grows c :=
  ⟨fun fits => ⟨(h.value fits).1.trans (k.value (h.value fits).2).1, (k.value (h.value fits).2).2⟩,
    fun full => k.overflow (h.overflow full), k.selection.trans h.selection⟩

/-- From s to t every counter only counts. -/
def Counting (s t : State) : Prop := ∀ i : Fin 4, s.counters[i].Grows t.counters[i]

theorem Counting.refl (s : State) : Counting s s := fun i => .refl s.counters[i]

theorem Counting.trans {s t u : State} (h : Counting s t) (k : Counting t u) : Counting s u :=
  fun i => (h i).trans (k i)

theorem Act.counting {s t : State} (h : Act s t) : Counting s t := by
  cases h with
  | count f grows =>
    intro i
    rw [updateCounters_get]
    exact grows _
  | _ => exact .refl s

theorem Acts.counting {s t : State} (h : Acts s t) : Counting s t :=
  h.keep (P := Counting s) (fun act counting => counting.trans act.counting) (.refl s)

theorem Begins.counting {s t : State} (h : Begins s t) : Counting s t := by
  rcases h with acts | ⟨m, d, before, -, -, -, -, -, after⟩
  · exact acts.counting
  · exact before.counting.trans (after.counting : Counting m t)

/-- A request lets the counters count, or is one that zeroes them and leaves the buffer. -/
theorem Served.counting {r : Request} {s t : State} (h : Served r s t) :
    Counting s t ∨
      r.code ∈ [codeWriteCounter, codeResetCounters, codeRestart] ∧ t.requests.length ≤ s.requests.length := by
  cases h with
  | committed _ _ _ _ => exact .inl (.refl s)
  | answered change _ _ =>
    cases change with
    | appended e room acts _ => exact .inl (acts.counting : Counting { s with consist := s.consist ++ [e] } _)
    | aborted train => exact .inl ((abortWith_acts _ train).counting : Counting s _)
    | selected code _ _ => exact .inr ⟨by simp [code], le_rfl⟩
    | zeroed code => exact .inr ⟨by simp [code], le_rfl⟩
    | restarted code _ => exact .inr ⟨by simp [code], Nat.zero_le _⟩
    | _ => exact .inl (.refl s)

/-- The counters count, or the head request zeroed them and left the buffer. -/
def CountingOrZeroed (s t : State) : Prop :=
  Counting s t ∨
    ∃ r rest,
      s.requests = r :: rest ∧ r.code ∈ [codeWriteCounter, codeResetCounters, codeRestart] ∧
        t.requests.length < s.requests.length

theorem CountingOrZeroed.of_served {s t : State} {r : Request} {rest : List Request} (ready : s.CanExecute r rest)
    (served : Served r { s with requests := rest } t) : CountingOrZeroed s t := by
  refine served.counting.imp id fun ⟨code, shorter⟩ => ⟨r, rest, ready.2.1, code, ?_⟩
  rw [ready.2.1]
  exact Nat.lt_succ_of_le shorter

theorem HandedOn.counting {s t : State} (h : HandedOn s t) : CountingOrZeroed s t := by
  cases h with
  | nothing => exact .inl (.refl s)
  | acts acts _ => exact .inl acts.counting
  | serve r rest ready served => exact .of_served ready served

theorem CountingOrZeroed.of_started {x : Choice} {s t : State} (h : CountingOrZeroed (startChosen x s) t) :
    CountingOrZeroed s t := by
  cases x <;> exact h

theorem loadStore_counters (b : Bool) (s : State) : (loadStore b s).counters = s.counters := by
  unfold loadStore
  dsimp only
  split <;> rfl

theorem Ran.counting {c : Instr} {s t : State} (h : Ran c s t) (kept : c ≠ .powerOnReset) : CountingOrZeroed s t := by
  cases h with
  | reset command => exact absurd command kept
  | @bounded m effect =>
    have counts : CountingOrZeroed s m := by
      cases effect with
      | begins b _ => exact .inl b.counting
      | load b _ =>
        refine .inl fun i => ?_
        simp only [evaluateReadiness_counters, reloadZones_counters, loadStore_counters]
        exact .refl _
      | serve r rest ready served => exact .of_served ready served
      | complete b tag _ => cases b <;> exact .inl (.refl s)
      | calEn _ => exact .inl (.refl s)
    unfold CountingOrZeroed Counting at counts ⊢
    rwa [boundary_counters, boundary_requests]
  | endedOn _ _ _ x _ handed => exact CountingOrZeroed.of_started handed.counting
  | releasedOn _ _ _ x _ handed => exact CountingOrZeroed.of_started (s := { s with hold := false }) handed.counting
  | _ => exact .inl (.refl s)

/-! ## Scan time (R18 to R23) -/

theorem Ran.heard {c : Instr} {s t : State} (h : Ran c s t) (kept : c ≠ .powerOnReset) : Heard c s t := by
  cases h with
  | reset command => exact absurd command kept
  | @bounded m effect =>
    have heard : Heard c s m := by
      cases effect with
      | begins _ heard => exact heard
      | load b _ => exact .inl (loadStore_train b s).2.2.2
      | serve r rest _ served => exact .inl served.rx
      | complete b tag _ => cases b <;> exact .inl rfl
      | calEn _ => exact .inl rfl
    refine heard.imp (boundary_rx m).trans (Or.imp (And.imp id (boundary_rx m).trans) (And.imp id ?_))
    rintro ⟨number, samples, p, check, command, accepted, advanced⟩
    refine ⟨number, samples, p, check, command, accepted, ?_⟩
    obtain ⟨last, synced, time⟩ := advanced
    rw [← boundary_rx m] at last synced time
    exact ⟨last, synced, time⟩
  | endedOn _ _ _ x _ handed => exact .inl (handed.rx.trans (startChosen_rx _ x))
  | releasedOn _ _ _ x _ handed => exact .inl (handed.rx.trans (startChosen_rx _ x))
  | _ => exact .inl rfl

theorem add_ofNat_ne (t : Scan) {d : Nat} (low : 1 ≤ d) (high : d ≤ 256) : t + BitVec.ofNat 32 d ≠ t := by
  bv_omega

/-! ## The hold (R158) -/

theorem Effect.hold_sending {c : Instr} {s t : State} (h : Effect c s t) :
    t.hold = s.hold ∧ t.link.sending = s.link.sending := by
  cases h with
  | begins b _ => exact ⟨b.sameCore.hold, b.sending⟩
  | load b _ =>
    have same : (loadStore b s).hold = s.hold ∧ (loadStore b s).link = s.link := by
      unfold loadStore
      dsimp only
      split <;> exact ⟨rfl, rfl⟩
    exact ⟨same.1, congrArg RecordLink.sending same.2⟩
  | serve r rest _ served => exact ⟨served.hold, served.sending⟩
  | complete b tag _ => cases b <;> exact ⟨rfl, rfl⟩
  | calEn _ => exact ⟨rfl, rfl⟩

theorem canStart_of_hold {s : State} (held : s.hold = true) : s.canStart = false := by simp [State.canStart, held]

theorem chosen_of_hold {s : State} (held : s.hold = true) : s.chosen = none := by
  unfold State.chosen
  rw [canStart_of_hold held]
  rfl

theorem Ran.held {c : Instr} {s t : State} (h : Ran c s t) (kept : c ≠ .powerOnReset) (before : s.hold = true)
    (after : t.hold = true) :
    t.link.sending = s.link.sending ∨ (t.link.sending = none ∧ ∃ w, c = .frameEnd w) := by
  cases h with
  | reset command => exact absurd command kept
  | @bounded m effect =>
    obtain ⟨hold, sending⟩ := effect.hold_sending
    rw [boundary_of_not_canStart (canStart_of_hold (hold.trans before))]
    exact .inl sending
  | ended w command _ _ => exact .inr ⟨rfl, w, command⟩
  | released _ _ _ _ => cases after
  | endedOn _ _ _ x chosen _ => exact nomatch (chosen_of_hold (s := endFrame s) before).symm.trans chosen
  | releasedOn _ _ _ x _ handed =>
    have same : (startChosen x { s with hold := false }).hold = false := by cases x <;> rfl
    rw [handed.hold, same] at after
    cases after
  | _ => exact .inl rfl

end Sys2Proof.Machine

open Sys2Proof Sys2Proof.Machine

/-- Settles O1: by the definition of a step. -/
theorem stepRunsTheFrontCommand : Obligations.StepRunsTheFrontCommand := by
  unfold Obligations.StepRunsTheFrontCommand
  exact fun c rest s => ⟨rfl, rfl⟩

/-- Settles O2: every arm answers a next state, and `Ran.pending` follows the commands behind. -/
theorem everyCommandAnswersANextState : Obligations.EveryCommandAnswersANextState := by
  unfold Obligations.EveryCommandAnswersANextState
  intro c s
  obtain ⟨t, executed⟩ : ∃ t, exec c s = .next t := by cases c <;> exact ⟨_, rfl⟩
  exact ⟨t, executed, (exec_ran executed).pending⟩

/-- Settles O48: the state at reset is one closed state. -/
theorem invariantsHoldAtReset : Obligations.InvariantsHoldAtReset := by
  unfold Obligations.InvariantsHoldAtReset
  decide

/-- Settles O55: only an accepted commit moves the counter, and it writes the store word with it; a cause marks a kind above
level 0 alone. -/
theorem stepsKeepCounterAndNoticesSound : Obligations.StepsKeepCounterAndNoticesSound := by
  unfold Obligations.StepsKeepCounterAndNoticesSound
  rintro s t ⟨⟨word, most⟩, notices⟩ stepped
  have counted : Recounted s t := by
    rcases step_eq_next stepped with rfl | ⟨c, rest, ran⟩
    · exact .of_eq ⟨word, most⟩ rfl rfl
    · exact (ran.recounted ⟨word, most⟩).congr rfl
  refine ⟨⟨counted.agreeing.word, counted.agreeing.most⟩, ?_, counted.least, counted.most⟩
  rw [noticesSound_iff] at notices ⊢
  exact noticed_kept.step (fun _ _ => id) stepped notices

/-- Settles O56: only the four writes change a table, and each asks the protection first. -/
theorem tablesChangeOnlyUnderProtection : Obligations.TablesChangeOnlyUnderProtection := by
  unfold Obligations.TablesChangeOnlyUnderProtection
  intro c s t executed started kept changed
  exact ((exec_ran executed).tables started kept).resolve_left changed

/-- Settles O57: an end is set where none is, and a train starts where no context is held. -/
theorem trainIdentityIsFixed : Obligations.TrainIdentityIsFixed := by
  unfold Obligations.TrainIdentityIsFixed
  intro s t timed stepped
  rw [timersFollow_iff] at timed
  have goes : TrainGoesOn s t := by
    rcases step_eq_next stepped with rfl | ⟨c, rest, ran⟩
    · exact .inl (.refl _)
    · exact ran.train { timed with }
  refine ⟨fun a b before after => ?_, fun b before after => ?_⟩
  · rcases goes with same | ⟨none, -, -⟩
    · obtain ⟨a', held, lasts⟩ := same b after
      obtain rfl : a' = a := Option.some.inj (held.symm.trans before)
      exact ⟨lasts.number, lasts.direction, lasts.startScan, lasts.endReason, lasts.endScan⟩
    · exact nomatch none.symm.trans before
  · rcases goes with same | ⟨-, ready, started⟩
    · obtain ⟨a, held, -⟩ := same b after
      exact nomatch held.symm.trans before
    · exact ⟨(started b after).1, (started b after).2, ready⟩

/-- Settles O58: counters grow in every act; the three requests that zero them leave the buffer. -/
theorem countersNeverDecrease : Obligations.CountersNeverDecrease := by
  unfold Obligations.CountersNeverDecrease
  intro c s t i executed kept stays fits
  rcases (exec_ran executed).counting kept with counts | ⟨r, rest, requests, code, shorter⟩
  · obtain ⟨value, overflow, selection⟩ := counts i
    exact ⟨(value fits).1, (value fits).2, overflow, selection⟩
  · exact absurd (stays r rest requests code) (Nat.not_le_of_lt shorter)

/-- Settles O59: an accepted scan moves the receiver, silence stops it, and nothing else touches it. -/
theorem timeAdvancesOnlyAtScans : Obligations.TimeAdvancesOnlyAtScans := by
  unfold Obligations.TimeAdvancesOnlyAtScans
  intro c s t executed kept
  rcases (exec_ran executed).heard kept with same | ⟨rfl, lost⟩ | ⟨started, number, xs, p, check, command, accepted, advanced⟩
  · exact ⟨fun moved => absurd (congrArg Receiver.time same) moved, fun _ => by simp [same]⟩
  · exact ⟨fun moved => absurd (congrArg Receiver.time lost) moved, fun _ => by simp [lost]⟩
  · obtain ⟨d, low, high, time⟩ := advanced.time
    refine ⟨fun _ => ⟨started, ⟨d, low, high, time⟩, number, xs, p, check, command, accepted, advanced.lastScan,
      advanced.synced⟩, fun same => ?_⟩
    exact absurd (time.symm.trans same) (add_ofNat_ne _ low high)

/-- Settles O60: a frame starts at a boundary, and under the hold no boundary starts one. -/
theorem noFrameStartsUnderHold : Obligations.NoFrameStartsUnderHold := by
  unfold Obligations.NoFrameStartsUnderHold
  intro c s t executed kept before after
  exact (exec_ran executed).held kept before after
end

section
/-! Counts, the choice of a notice, frame boundaries, reset and the start-up load (R125, R158 to R162, R173, R175). -/

namespace Sys2Proof.Machine

/-! ## The choice of a notice (R159) -/

/-- The kind is pending at a level of lo to hi. -/
def NoticeUnit.Candidate (u : NoticeUnit) (lo hi : Nat) (k : NoticeKind) : Prop :=
  (u.entry k).pending = true ∧ lo ≤ u.level k ∧ u.level k ≤ hi

/-- m yields to k: its level is lower, or the same with a kind number not above. -/
def NoticeUnit.YieldsTo (u : NoticeUnit) (m k : NoticeKind) : Prop :=
  u.level m < u.level k ∨ (u.level m = u.level k ∧ m.index ≤ k.index)

/-- The outcome of the choice among the kinds of a list. -/
structure NoticeUnit.Chosen (u : NoticeUnit) (lo hi : Nat) (l : List NoticeKind) (best : Option NoticeKind) : Prop where
  candidate : ∀ k, best = some k → u.Candidate lo hi k
  highest : ∀ k, best = some k → ∀ m ∈ l, u.Candidate lo hi m → u.YieldsTo m k
  held : ∀ k, best = some k → k ∈ l
  absent : best = none → ∀ m ∈ l, ¬u.Candidate lo hi m

section
variable (u : NoticeUnit) (lo hi : Nat)

/-- One kind taken into the choice. -/
def NoticeUnit.better (best : Option NoticeKind) (k : NoticeKind) : Option NoticeKind :=
  if (u.entry k).pending && decide (lo ≤ u.level k) && decide (u.level k ≤ hi) then
    match best with
    | some b => if u.level b ≤ u.level k then some k else some b
    | none => some k
  else best

theorem NoticeUnit.choose_eq : u.choose lo hi = allKinds.foldl (u.better lo hi) none := rfl

theorem NoticeUnit.candidate_iff (k : NoticeKind) :
    ((u.entry k).pending && decide (lo ≤ u.level k) && decide (u.level k ≤ hi)) = true ↔ u.Candidate lo hi k := by
  simp [Candidate, and_assoc]

/-- A kind of a higher number taken into the choice. -/
theorem NoticeUnit.Chosen.better {u : NoticeUnit} {lo hi : Nat} {l : List NoticeKind} {best : Option NoticeKind}
    (h : u.Chosen lo hi l best) (k : NoticeKind) (later : ∀ m ∈ l, m.index < k.index) :
    u.Chosen lo hi (l ++ [k]) (u.better lo hi best k) := by
  unfold NoticeUnit.better
  split
  next candidate =>
    rw [NoticeUnit.candidate_iff] at candidate
    have self : u.YieldsTo k k := .inr ⟨rfl, le_rfl⟩
    -- k wins over every kind that yields to something not above k's level
    have wins (upTo : ∀ m ∈ l, u.Candidate lo hi m → u.level m ≤ u.level k) :
        u.Chosen lo hi (l ++ [k]) (some k) := by
      refine ⟨by rintro _ ⟨⟩; exact candidate, ?_, by rintro _ ⟨⟩; simp, fun no => nomatch no⟩
      rintro _ ⟨⟩ m mem pending
      rcases List.mem_append.1 mem with before | last
      · exact (upTo m before pending).lt_or_eq.imp id fun same => ⟨same, (later m before).le⟩
      · rw [List.mem_singleton.1 last]
        exact self
    cases best with
    | none => exact wins fun m mem pending => absurd pending (h.absent rfl m mem)
    | some b =>
      dsimp only
      split
      next upTo =>
        refine wins fun m mem pending => ?_
        rcases h.highest b rfl m mem pending with lower | ⟨same, -⟩
        · exact lower.le.trans upTo
        · exact same.le.trans upTo
      next under =>
        refine ⟨h.candidate, ?_, fun c held => List.mem_append_left _ (h.held c held), fun no => nomatch no⟩
        rintro _ ⟨⟩ m mem pending
        rcases List.mem_append.1 mem with before | last
        · exact h.highest b rfl m before pending
        · rw [List.mem_singleton.1 last]
          exact .inl (Nat.lt_of_not_le under)
  next other =>
    rw [NoticeUnit.candidate_iff] at other
    refine ⟨h.candidate, fun c held m mem pending => ?_, fun c held => List.mem_append_left _ (h.held c held),
      fun none m mem pending => ?_⟩
    · rcases List.mem_append.1 mem with before | last
      · exact h.highest c held m before pending
      · exact absurd (List.mem_singleton.1 last ▸ pending) other
    · rcases List.mem_append.1 mem with before | last
      · exact h.absent none m before pending
      · exact absurd (List.mem_singleton.1 last ▸ pending) other

theorem NoticeUnit.chosen_foldl (l : List NoticeKind) (rising : (l.map NoticeKind.index).Pairwise (· < ·)) :
    u.Chosen lo hi l (l.foldl (u.better lo hi) none) := by
  induction l using List.reverseRecOn with
  | nil => exact ⟨fun _ no => (nomatch no), fun _ no => (nomatch no), fun _ no => (nomatch no), fun _ _ no => (nomatch no)⟩
  | append_singleton l k ih =>
    rw [List.map_append, List.pairwise_append] at rising
    rw [List.foldl_concat]
    refine (ih rising.1).better k fun m mem => ?_
    exact rising.2.2 m.index (List.mem_map_of_mem mem) k.index (by simp)

theorem NoticeUnit.choose_chosen : u.Chosen lo hi allKinds (u.choose lo hi) :=
  u.chosen_foldl lo hi allKinds (by decide)

theorem mem_allKinds (k : NoticeKind) : k ∈ allKinds := by cases k <;> decide

end

/-- Of two kinds that yield to one another there is only one. -/
theorem NoticeUnit.YieldsTo.antisymm {u : NoticeUnit} {k m : NoticeKind} (h : u.YieldsTo k m) (g : u.YieldsTo m k) :
    k = m := by
  unfold YieldsTo at h g
  refine NoticeKind.index_inj (le_antisymm ?_ ?_)
  · rcases h with h | h
    · omega
    · exact h.2
  · rcases g with g | g
    · omega
    · exact g.2

theorem NoticeUnit.choose_eq_some_iff (u : NoticeUnit) (lo hi : Nat) (k : NoticeKind) :
    u.choose lo hi = some k ↔ u.Candidate lo hi k ∧ ∀ m, u.Candidate lo hi m → u.YieldsTo m k := by
  have chosen := u.choose_chosen lo hi
  constructor
  · exact fun best => ⟨chosen.candidate k best, fun m => chosen.highest k best m (mem_allKinds m)⟩
  · rintro ⟨candidate, highest⟩
    cases best : u.choose lo hi with
    | none => exact absurd candidate (chosen.absent best k (mem_allKinds k))
    | some b =>
      have yields := chosen.highest b best k (mem_allKinds k) candidate
      rw [yields.antisymm (highest b (chosen.candidate b best))]

theorem NoticeUnit.choose_eq_none_iff (u : NoticeUnit) (lo hi : Nat) :
    u.choose lo hi = none ↔ ∀ m, ¬u.Candidate lo hi m := by
  have chosen := u.choose_chosen lo hi
  constructor
  · exact fun none m => chosen.absent none m (mem_allKinds m)
  · intro absent
    cases best : u.choose lo hi with
    | none => rfl
    | some b => exact absurd (chosen.candidate b best) (absent b)

/-! ## Boundaries (R158, R159) -/

theorem canStart_of_sending {s : State} (busy : s.link.sending.isSome = true) : s.canStart = false := by
  cases held : s.link.sending with
  | none => simp [held] at busy
  | some f => simp [State.canStart, held]

theorem canStart_of_idle {s : State} (released : s.hold = false) (idle : s.link.sending = none) : s.canStart = true := by
  simp [State.canStart, released, idle]

theorem boundary_of_arbiter_none {s : State} (rests : s.arbiter = none) : boundary s = s := by
  rcases boundary_cases s with ⟨same, -⟩ | ⟨c, -, chosen, -⟩
  · exact same
  · exact nomatch rests.symm.trans chosen

/-! ## The start-up load (R125) -/

theorem reset_ready (n : Nat) : Calibration.ready { Calibration.reset with counter := n } = false := rfl

/-- Readiness without tables. -/
theorem evaluateReadiness_of_unready {s : State} (unready : s.cal.ready = false) :
    evaluateReadiness s = { s with part := .notReady } := by simp [evaluateReadiness, unready]

theorem loadStore_of_good {s : State} {bytes : List Byte} {t : ImageTables} (held : s.store.image = .held bytes)
    (good : parseImage bytes = some t) :
    loadStore true s = { s with cal := t.calibration (s.store.word.getD 0) } := by
  simp [loadStore, StoreImage.judge, held, good]

theorem loadStore_of_blank {s : State} (blank : s.store.image = .blank) :
    loadStore true s = { s with cal := { Calibration.reset with counter := s.store.word.getD 0 } } := by
  simp [loadStore, StoreImage.judge, blank]

theorem judge_of_failed {readable : Bool} {x : StoreImage}
    (failed : readable = false ∨ (∀ b, x = .held b → parseImage b = none) ∧ x ≠ .blank) : x.judge readable = .failed := by
  cases readable with
  | false => rfl
  | true =>
    obtain ⟨unparsed, written⟩ := failed.resolve_left (by decide)
    cases x with
    | blank => exact absurd rfl written
    | held b => simp [StoreImage.judge, unparsed b rfl]
    | writing b => rfl
    | damaged => rfl

theorem loadStore_of_failed {readable : Bool} {s : State}
    (failed : readable = false ∨ (∀ b, s.store.image = .held b → parseImage b = none) ∧ s.store.image ≠ .blank) :
    loadStore readable s =
      raiseCause .storeFault 2 { s with cal := { Calibration.reset with counter := s.store.word.getD 0 } } := by
  unfold loadStore
  dsimp only
  rw [judge_of_failed failed]
  rfl

theorem exec_startUpLoad {s : State} (readable : Bool) (starting : s.part = .starting) :
    exec (.startUpLoad readable) s = .next (boundary (evaluateReadiness (reloadZones (loadStore readable s)))) := by
  show execStartUpLoad readable s = _
  rw [execStartUpLoad, if_pos starting]

end Sys2Proof.Machine

open Sys2Proof Sys2Proof.Machine

/-- Settles O4: the counters tally one by one, and each one filled is a cause of STATS_FULL. -/
theorem occurrencesAreCounted : Obligations.OccurrencesAreCounted := by
  unfold Obligations.OccurrencesAreCounted
  intro e n s
  refine ⟨(countEvent e n s).counters, s.notices.raises .statsFull (s.filled (Counter.occur e n)), updateCounters_eq _ s,
    fun i => ?_, fun m other => NoticeUnit.entry_raises_of_ne _ _ other _, NoticeUnit.raises_levels _ _ _, fun none => ?_,
    fun i selected low high => ?_⟩
  · exact (updateCounters_get _ s i).trans (Counter.occur_eq e n _)
  · have nothing : s.filled (Counter.occur e n) = [] := by
      rw [filled_eq_nil]
      intro i
      rw [Bool.eq_false_iff, Ne, Counter.occur_full]
      rintro ⟨selected, low, high⟩
      rcases none i selected with full | part <;> omega
    rw [nothing]
    rfl
  · refine NoticeUnit.count_raises_ne_zero _ _ ?_
    exact List.ne_nil_of_mem ((mem_filled _ s i).2 ((Counter.occur_full e n _).2 ⟨selected, low, high⟩))

/-- Settles O5: by induction over the kinds in the order of their numbers, the best so far yielding to a level not lower. -/
theorem noticeChoiceIsTheHighest : Obligations.NoticeChoiceIsTheHighest := by
  unfold Obligations.NoticeChoiceIsTheHighest
  intro u lo hi
  refine ⟨fun k => ?_, ?_⟩
  · rw [NoticeUnit.choose_eq_some_iff]
    simp only [NoticeUnit.Candidate, NoticeUnit.YieldsTo, and_imp]
  · rw [NoticeUnit.choose_eq_none_iff]
    simp only [NoticeUnit.Candidate, not_and]

/-- Settles O6: the arbiter's cases in their order. -/
theorem boundaryStartsTheFirstCandidate : Obligations.BoundaryStartsTheFirstCandidate := by
  unfold Obligations.BoundaryStartsTheFirstCandidate
  intro s
  refine ⟨fun held => boundary_of_not_canStart (canStart_of_hold held),
    fun busy => boundary_of_not_canStart (canStart_of_sending busy), fun released idle => ?_⟩
  have starts {c : Choice} (first : s.arbiter = some c) : boundary s = startChosen c s :=
    boundary_of_canStart (canStart_of_idle released idle) first
  refine ⟨fun r rest responses => ?_, fun responses => ⟨fun k high => ?_, fun high =>
    ⟨fun q rest records => ?_, fun records => ⟨fun k low => ?_, fun low =>
      ⟨fun d rest details => ?_, fun details => ?_⟩⟩⟩⟩⟩
  · rw [starts (c := .response r) (by simp [State.arbiter, responses])]
    simp [startChosen, responses]
  · exact starts (c := .notice k) (by simp [State.arbiter, responses, high])
  · rw [starts (c := .record q) (by simp [State.arbiter, responses, high, records])]
    simp [startChosen, records]
  · exact starts (c := .notice k) (by simp [State.arbiter, responses, high, records, low])
  · rw [starts (c := .detail d) (by simp [State.arbiter, responses, high, records, low, details])]
    simp [startChosen, details]
  · exact boundary_of_arbiter_none (by simp [State.arbiter, responses, high, records, low, details])

/-- Settles O7: `powerOn` is the state at reset but for the inputs, the counter and the store. -/
theorem powerOnResetRestoresTheInitialState : Obligations.PowerOnResetRestoresTheInitialState := by
  unfold Obligations.PowerOnResetRestoresTheInitialState
  intro s
  have zones : ∀ z : Fin 4, State.reset.zones[z].windows = [] ∧ State.reset.zones[z].north = Channel.reset ∧
      State.reset.zones[z].south = State.reset.zones[z].north := by decide
  have channels : ∀ ch : Fin 8, Calibration.reset.channels[ch] = none := by decide
  have types : ∀ i : Fin 32, Assembler.reset.types[i] = none := by decide
  have entries : ∀ k : NoticeKind, NoticeUnit.reset.entry k = NoticeEntry.reset := by intro k; cases k <;> decide
  have counters : ∀ i : Fin 4, State.reset.counters[i] = Counter.reset := by decide
  refine ⟨powerOn s, rfl, rfl, rfl, rfl, rfl, rfl, rfl, rfl, rfl, rfl, zones, rfl, channels, rfl, rfl, rfl, rfl, rfl, rfl,
    rfl, fun b writing => ?_, fun unwritten => ?_, types, rfl, rfl, rfl, rfl, rfl, entries, rfl, rfl, rfl, counters, rfl⟩
  · show s.store.image.interrupted = _
    rw [writing]
    rfl
  · show s.store.image.interrupted = _
    cases image : s.store.image with
    | writing b => exact absurd image (unwritten b)
    | _ => rfl

/-- Settles O8: the image judged, the channels reloaded, readiness evaluated. -/
theorem startUpLoadReadsTheStore : Obligations.StartUpLoadReadsTheStore := by
  unfold Obligations.StartUpLoadReadsTheStore
  refine ⟨fun s bytes t starting held good => ?_, fun s starting blank => ?_, fun s readable starting failed => ?_,
    fun s ch => ?_, fun s readable started => ?_⟩
  · rw [exec_startUpLoad true starting, loadStore_of_good held good]
    rfl
  · rw [exec_startUpLoad true starting, loadStore_of_blank blank,
      evaluateReadiness_of_unready (by rw [reloadZones_cal]; exact reset_ready _)]
  · rw [exec_startUpLoad readable starting, loadStore_of_failed failed,
      evaluateReadiness_of_unready (by rw [reloadZones_cal]; exact reset_ready _)]
    rfl
  · rw [reloadZones_channel]
    simp only [channelOf_zone_rail]
    rfl
  · show execStartUpLoad readable s = _
    rw [execStartUpLoad, if_neg started]
end

section
/-! The checks of the Geometry Record, the Speed Curve and the Limits as tables of conditions (R8, R116, R117). -/

namespace Sys2Proof.Machine

/-! ## Tables of decided checks -/

/-- A decided table reads as a table of conditions. -/
def conditions (l : List (Bool × Nat)) : List (Prop × Nat) := l.map fun c => (c.1 = true, c.2)

theorem conditions_cons (b : Bool) (n : Nat) (l : List (Bool × Nat)) :
    conditions ((b, n) :: l) = (b = true, n) :: conditions l := rfl

theorem conditions_append (l m : List (Bool × Nat)) : conditions (l ++ m) = conditions l ++ conditions m :=
  List.map_append

theorem firstFailing_none_iff (l : List (Bool × Nat)) : firstFailing l = none ↔ ∀ c ∈ conditions l, c.1 := by
  rw [firstFailing_eq_none, conditions, List.forall_mem_map]

theorem firstFailing_some_iff (l : List (Bool × Nat)) (n : Nat) : firstFailing l = some n ↔ FirstFails (conditions l) n :=
  firstFailing_eq_some l n

/-- A table whose first check fails reports it, whatever stands behind. -/
theorem firstFails_cons_of_not {p : Prop} {k : Nat} {l : List (Prop × Nat)} (fails : ¬p) (n : Nat) :
    FirstFails ((p, k) :: l) n ↔ n = k := by
  constructor
  · rintro ⟨before, q, after, eq, passed, -⟩
    cases before with
    | nil =>
      obtain ⟨⟨-, rfl⟩, -⟩ := by simpa using eq
      rfl
    | cons c before =>
      obtain ⟨rfl, -⟩ := by simpa using eq
      exact absurd (passed (p, k) List.mem_cons_self) fails
  · rintro rfl
    exact ⟨[], p, l, rfl, by simp, fails⟩

theorem inRange_iff (lo hi x : Nat) : inRange lo hi x = true ↔ lo ≤ x ∧ x ≤ hi := by simp [inRange]

/-! ## The zones of a Geometry Record (R8, steps 10 to 13) -/

/-- The three conditions of a zone at a place of a section. -/
def zoneConditions (mas : Nat) (zones : List ZoneSpan) (x : ZoneSpan × Nat) : List (Prop × Nat) :=
  [((x.2 = 0 → 500 ≤ x.1.a) ∧ ∀ y, x.2 ≠ 0 → zones[x.2 - 1]? = some y → y.b ≤ x.1.a, 5 + 2 * (x.2 + 1)),
    (300 ≤ (x.1.b : Int) - x.1.a ∧ (x.1.b : Int) - x.1.a ≤ 1500, 6 + 2 * (x.2 + 1)),
    ((x.1.b : Int) - x.1.a < mas, 6 + 2 * (x.2 + 1))]

theorem conditions_zoneChecks (mas : Nat) (zones before zs : List ZoneSpan) (split : zones = before ++ zs) :
    conditions (zoneChecks mas (before.length + 1) (before.getLast?.map ZoneSpan.b) zs) =
      (zs.zipIdx before.length).flatMap (zoneConditions mas zones) := by
  induction zs generalizing before with
  | nil => rfl
  | cons z zs ih =>
    have rest := ih (before ++ [z]) (by simpa using split)
    simp only [List.length_append, List.length_singleton, List.getLast?_concat, Option.map_some] at rest
    have start : (before.getLast?.map ZoneSpan.b).getD 500 ≤ z.a ↔
        (before.length = 0 → 500 ≤ z.a) ∧ ∀ y, before.length ≠ 0 → zones[before.length - 1]? = some y → y.b ≤ z.a := by
      rcases before.eq_nil_or_concat with rfl | ⟨front, y, rfl⟩
      · simp
      · simp [split]
    have width : (z.a + 300 ≤ z.b ∧ z.b ≤ z.a + 1500) ↔
        300 ≤ (z.b : Int) - z.a ∧ (z.b : Int) - z.a ≤ 1500 := by omega
    have short : z.b < z.a + mas ↔ (z.b : Int) - z.a < mas := by omega
    simp only [zoneChecks, conditions_cons, List.zipIdx_cons, List.flatMap_cons, rest, zoneConditions, List.cons_append,
      List.nil_append, Bool.and_eq_true, decide_eq_true_eq, start, width, short]

/-- A zone in its place behind a start s, within its lengths. -/
structure ZoneSpan.Fits (mas start : Nat) (z : ZoneSpan) : Prop where
  start : start ≤ z.a
  least : z.a + 300 ≤ z.b
  most : z.b ≤ z.a + 1500
  short : z.b < z.a + mas

theorem zoneChecks_pass_iff (mas i : Nat) (prev : Option Nat) (zs : List ZoneSpan) :
    (∀ c ∈ zoneChecks mas i prev zs, c.1 = true) ↔
      (∀ z ∈ zs, z.Fits mas (prev.getD 500)) ∧ zs.Pairwise fun y z => y.b ≤ z.a := by
  induction zs generalizing i prev with
  | nil => simp [zoneChecks]
  | cons z zs ih =>
    simp only [zoneChecks, List.forall_mem_cons, ih, Bool.and_eq_true, decide_eq_true_eq, List.pairwise_cons,
      Option.getD_some]
    constructor
    · rintro ⟨start, ⟨least, most⟩, short, fits, ordered⟩
      refine ⟨⟨⟨start, least, most, short⟩, fun y mem => { fits y mem with start := ?_ }⟩,
        fun y mem => (fits y mem).start, ordered⟩
      have := (fits y mem).start
      omega
    · rintro ⟨⟨fit, fits⟩, behind, ordered⟩
      exact ⟨fit.start, ⟨fit.least, fit.most⟩, fit.short, fun y mem => { fits y mem with start := behind y mem }, ordered⟩

/-- R8, step 13: the last zone of a section in order ends behind every other. -/
theorem lastZoneEnd_le_iff {mas start n : Nat} {zs : List ZoneSpan} (fits : ∀ z ∈ zs, z.Fits mas start)
    (ordered : zs.Pairwise fun y z => y.b ≤ z.a) (some : zs ≠ []) :
    lastZoneEnd zs + 500 ≤ n ↔ ∀ z ∈ zs, z.b + 500 ≤ n := by
  obtain ⟨front, last, rfl⟩ := (List.eq_nil_or_concat zs).resolve_left some
  rw [List.concat_eq_append] at *
  rw [List.pairwise_append] at ordered
  have ends : lastZoneEnd (front ++ [last]) = last.b := by simp [lastZoneEnd]
  rw [ends]
  constructor
  · intro fit z mem
    rcases List.mem_append.1 mem with before | same
    · have := ordered.2.2 z before last (by simp)
      have := (fits last (by simp)).least
      omega
    · rw [List.mem_singleton.1 same]
      exact fit
  · exact fun all => all last (by simp)

/-- The conditions of R8 in order, those of the zones as `zoneConditions`. -/
def geometryConditions (minZones : Nat) (g : GeometryRecord) : List (Prop × Nat) :=
  [(1 ≤ g.zones.length ∧ g.zones.length ≤ 4, 1), (minZones ≤ g.zones.length, 1),
      (1000 ≤ g.fScan ∧ g.fScan ≤ 8000, 2), (300 ≤ g.dW ∧ g.dW ≤ 2000, 3), (300 ≤ g.dE ∧ g.dE ≤ 2000, 4),
      (2000 ≤ g.cE ∧ g.cE ≤ 30000, 5), (800 ≤ g.minAxleSpacing ∧ g.minAxleSpacing ≤ 3000, 6),
      (g.dW < g.minAxleSpacing, 3), (g.dE < g.minAxleSpacing, 4)] ++
    (g.zones.zipIdx.flatMap (zoneConditions g.minAxleSpacing g.zones)) ++
    [(∀ y, g.zones.getLast? = some y → y.b + 500 ≤ g.cE, 5)]

/-- With a zone, the decided table of R8 is the table of its conditions. -/
theorem conditions_geometryChecks (minZones : Nat) {g : GeometryRecord} (zoned : g.zones ≠ []) :
    conditions (geometryChecks minZones g) = geometryConditions minZones g := by
  have zones := conditions_zoneChecks g.minAxleSpacing g.zones [] g.zones rfl
  have last : lastZoneEnd g.zones + 500 ≤ g.cE ↔ ∀ y, g.zones.getLast? = some y → y.b + 500 ≤ g.cE := by
    obtain ⟨front, y, eq⟩ := (List.eq_nil_or_concat g.zones).resolve_left zoned
    simp [lastZoneEnd, eq]
  simp only [List.length_nil, Nat.zero_add, List.getLast?_nil, Option.map_none] at zones
  unfold geometryChecks geometryConditions
  rw [conditions_append, conditions_append, zones]
  simp only [conditions_cons, inRange_iff, decide_eq_true_eq, last]
  rfl

/-- R8: the first condition that fails is reported. -/
theorem geometryFault_eq_some_iff (minZones n : Nat) (g : GeometryRecord) :
    geometryFault minZones g = some n ↔ FirstFails (geometryConditions minZones g) n := by
  unfold geometryFault
  rw [firstFailing_some_iff]
  by_cases zoned : g.zones = []
  · have fails : ¬(1 ≤ g.zones.length ∧ g.zones.length ≤ 4) := by simp [zoned]
    have decided : ¬inRange 1 4 g.zones.length = true := by rwa [inRange_iff]
    exact (firstFails_cons_of_not decided n).trans (firstFails_cons_of_not fails n).symm
  · rw [conditions_geometryChecks minZones zoned]

/-- What a Geometry Record that passes is (R8). -/
structure GeometryRecord.Passes (minZones : Nat) (g : GeometryRecord) : Prop where
  zoneCount : 1 ≤ g.zones.length ∧ g.zones.length ≤ 4
  minZones : minZones ≤ g.zones.length
  fScan : 1000 ≤ g.fScan ∧ g.fScan ≤ 8000
  dW : 300 ≤ g.dW ∧ g.dW ≤ 2000
  dE : 300 ≤ g.dE ∧ g.dE ≤ 2000
  cE : 2000 ≤ g.cE ∧ g.cE ≤ 30000
  minAxleSpacing : 800 ≤ g.minAxleSpacing ∧ g.minAxleSpacing ≤ 3000
  dW_short : g.dW < g.minAxleSpacing
  dE_short : g.dE < g.minAxleSpacing
  zones : ∀ z ∈ g.zones, z.Fits g.minAxleSpacing 500
  ordered : g.zones.Pairwise fun y z => y.b ≤ z.a
  inside : ∀ z ∈ g.zones, z.b + 500 ≤ g.cE

theorem geometryFault_eq_none_iff (minZones : Nat) (g : GeometryRecord) :
    geometryFault minZones g = none ↔ g.Passes minZones := by
  unfold geometryFault geometryChecks
  rw [firstFailing_eq_none]
  simp only [List.cons_append, List.nil_append, List.forall_mem_cons, List.forall_mem_append, zoneChecks_pass_iff,
    inRange_iff, decide_eq_true_eq, Option.getD_none]
  constructor
  · rintro ⟨count, min, fScan, dW, dE, cE, mas, shortW, shortE, ⟨zones, ordered⟩, last, -⟩
    have zoned : g.zones ≠ [] := List.ne_nil_of_length_pos count.1
    exact ⟨count, min, fScan, dW, dE, cE, mas, shortW, shortE, zones, ordered,
      (lastZoneEnd_le_iff zones ordered zoned).1 last⟩
  · rintro ⟨count, min, fScan, dW, dE, cE, mas, shortW, shortE, zones, ordered, inside⟩
    have zoned : g.zones ≠ [] := List.ne_nil_of_length_pos count.1
    exact ⟨count, min, fScan, dW, dE, cE, mas, shortW, shortE, ⟨zones, ordered⟩,
      (lastZoneEnd_le_iff zones ordered zoned).2 inside, by simp⟩

/-! ## The Speed Curve (R116) -/

theorem curve_toList (k : Vector CurvePoint 8) : k.toList = [k[0], k[1], k[2], k[3], k[4], k[5], k[6], k[7]] := by
  refine List.ext_getElem (by simp) fun i short _ => ?_
  have : i < 8 := by simpa using short
  interval_cases i <;> simp

/-- The conditions of a point of a curve (R116). -/
def curveConditions (k : Vector CurvePoint 8) (i : Fin 8) : List (Prop × Nat) :=
  [(k[i].v ≤ 2000, 2 * i.val + 1), (∀ j : Fin 8, j.val + 1 = i.val → k[j].v < k[i].v, 2 * i.val + 1),
    (16384 ≤ k[i].k ∧ k[i].k ≤ 65535, 2 * i.val + 2)]

theorem conditions_curveChecks (k : Vector CurvePoint 8) :
    conditions (curveChecks 1 none k.toList) = (List.finRange 8).flatMap (curveConditions k) := by
  have indices : List.finRange 8 = [0, 1, 2, 3, 4, 5, 6, 7] := by decide
  rw [curve_toList, indices]
  simp [curveChecks, conditions, curveConditions, inRange, Fin.forall_fin_succ]

theorem curveFault_eq_none_iff (k : Vector CurvePoint 8) :
    curveFault k = none ↔
      (∀ i : Fin 8, k[i].v ≤ 2000 ∧ 16384 ≤ k[i].k ∧ k[i].k ≤ 65535) ∧ ∀ i : Fin 7, k[i.val].v < k[i.val + 1].v := by
  unfold curveFault
  rw [firstFailing_none_iff, conditions_curveChecks]
  simp only [List.mem_flatMap, List.mem_finRange, true_and, forall_exists_index, curveConditions]
  constructor
  · intro passed
    refine ⟨fun i => ⟨passed _ i (.head _), passed _ i (.tail _ (.tail _ (.head _)))⟩, fun i => ?_⟩
    exact passed _ i.succ (.tail _ (.head _)) i.castSucc rfl
  · rintro ⟨ranges, rises⟩ c i mem
    simp only [List.mem_cons, List.not_mem_nil, or_false] at mem
    rcases mem with rfl | rfl | rfl
    · exact (ranges i).1
    · intro j before
      have := rises ⟨j.val, by omega⟩
      simpa [before] using this
    · exact (ranges i).2

/-! ## The Limits (R117) -/

/-- The conditions of R117 in order. -/
def limitsConditions (z : Nat) (l : Limits) : List (Prop × Nat) :=
  [(l.trimEighths ≤ 3, 1), (4 ≤ l.nMin ∧ l.nMin ≤ 64, 2), (1 ≤ l.minZones ∧ l.minZones ≤ z, 3),
    (1 ≤ l.spreadLimit ∧ l.spreadLimit ≤ 255, 4), (1 ≤ l.tol ∧ l.tol ≤ 255, 5), (2 ≤ l.nOn ∧ l.nOn ≤ 15, 6),
    (2 ≤ l.nOff ∧ l.nOff ≤ 15, 7), (10 ≤ l.vMin ∧ l.vMin ≤ 300, 8), (l.vMin + 1 ≤ l.vMax ∧ l.vMax ≤ 1500, 9),
    (1 ≤ l.accelLimit ∧ l.accelLimit ≤ 32, 10), (1 ≤ l.lrLimit ∧ l.lrLimit ≤ 255, 11),
    (1 ≤ l.endLimit ∧ l.endLimit ≤ 255, 12)]

theorem limitsFault_eq_none_iff (z : Nat) (l : Limits) : limitsFault z l = none ↔ ∀ c ∈ limitsConditions z l, c.1 := by
  unfold limitsFault
  rw [firstFailing_none_iff]
  simp only [conditions, List.map_cons, List.map_nil, inRange_iff, Nat.zero_le, true_and, limitsConditions]

theorem limitsFault_eq_some_iff (z n : Nat) (l : Limits) :
    limitsFault z l = some n ↔ FirstFails (limitsConditions z l) n := by
  unfold limitsFault
  rw [firstFailing_some_iff]
  simp only [conditions, List.map_cons, List.map_nil, inRange_iff, Nat.zero_le, true_and, limitsConditions]

end Sys2Proof.Machine

open Sys2Proof Sys2Proof.Machine

/-- Settles O46: each decided table reads as its table of conditions; zones in order end before the last one does. -/
theorem geometryChecksOrderTheSection : Obligations.GeometryChecksOrderTheSection := by
  unfold Obligations.GeometryChecksOrderTheSection
  refine ⟨fun minZones n g => geometryFault_eq_some_iff minZones n g, fun k => ⟨curveFault_eq_none_iff k, fun n => ?_⟩,
    ?_, fun c => ⟨fun absent => ?_, fun g held => ?_⟩, fun minZones g => ?_⟩
  · rw [curveFault, firstFailing_some_iff, conditions_curveChecks]
    rfl
  · rintro z l checks rfl
    exact ⟨limitsFault_eq_none_iff z l, fun n => limitsFault_eq_some_iff z n l⟩
  · simp [Calibration.maxMinZones, absent]
  · simp [Calibration.maxMinZones, held]
  · rw [geometryFault_eq_none_iff]
    constructor
    · rintro ⟨⟨one, four⟩, min, ⟨f0, f1⟩, ⟨w0, w1⟩, ⟨e0, e1⟩, ⟨c0, c1⟩, ⟨m0, m1⟩, shortW, shortE, zones, ordered, inside⟩
      exact ⟨⟨one, four, min, f0, f1, w0, w1, e0, e1, c0, c1, m0, m1, shortW, shortE⟩,
        fun z mem => ⟨(zones z mem).start, (zones z mem).least, (zones z mem).most, (zones z mem).short, inside z mem⟩,
        ordered⟩
    · rintro ⟨⟨one, four, min, f0, f1, w0, w1, e0, e1, c0, c1, m0, m1, shortW, shortE⟩, zones, ordered⟩
      refine ⟨⟨one, four⟩, min, ⟨f0, f1⟩, ⟨w0, w1⟩, ⟨e0, e1⟩, ⟨c0, c1⟩, ⟨m0, m1⟩, shortW, shortE, fun z mem => ?_, ordered,
        fun z mem => ?_⟩
      · obtain ⟨start, least, most, short, -⟩ := zones z mem
        exact ⟨start, least, most, short⟩
      · obtain ⟨-, -, -, -, inside⟩ := zones z mem
        exact inside
end

section
/-! Fields read back from the bytes they were written to: the store image, frames and the hunt for them (R14, R15, R124, R179,
R180, R185). -/

namespace Sys2Proof.Machine

/-! ## Fields of a byte string -/

section
variable (n v : Nat) (p : List Byte)

/-- A field alone. -/
theorem natAt_natBytes : natAt (natBytes n v) 0 n = v % 256 ^ n := by
  have := natAt_front n v []
  rwa [List.append_nil] at this

/-- A value that fits its field reads back. -/
theorem natAt_front_of_lt {n v : Nat} (rest : List Byte) (fits : v < 256 ^ n) : natAt (natBytes n v ++ rest) 0 n = v := by
  rw [natAt_front, Nat.mod_eq_of_lt fits]

theorem be_natBytes_of_lt {n v : Nat} (fits : v < 256 ^ n) : be (natBytes n v) = v := by
  rw [be_natBytes, Nat.mod_eq_of_lt fits]

/-- A field behind another. -/
theorem natAt_skip {off : Nat} (m : Nat) (behind : n ≤ off) : natAt (natBytes n v ++ p) off m = natAt p (off - n) m := by
  unfold natAt
  rw [List.drop_append, natBytes_length, List.drop_eq_nil_of_le (by simpa using behind), List.nil_append]

/-- A field of a byte string is that of its rest. -/
theorem natAt_eq_drop (off m : Nat) : natAt p off m = natAt (p.drop off) 0 m := by simp [natAt]

theorem natAt_append_left (q : List Byte) {off m : Nat} (within : off + m ≤ p.length) :
    natAt (p ++ q) off m = natAt p off m := by
  unfold natAt
  rw [List.drop_append_of_le_length (by omega), List.take_append_of_le_length (by rw [List.length_drop]; omega)]

end

/-- A signed field of n bytes reads back a value in its range. -/
theorem intAt_intBytes {n : Nat} {v : Int} (rest : List Byte) (low : -2 ^ (8 * n + 7) ≤ v) (high : v < 2 ^ (8 * n + 7)) :
    intAt (intBytes (n + 1) v ++ rest) 0 (n + 1) = v := by
  have power : (256 : Nat) ^ (n + 1) = 2 ^ (8 * n + 7 + 1) := by
    rw [show (256 : Nat) = 2 ^ 8 by norm_num, ← pow_mul]
    congr 1
  have width : 8 * (n + 1) = 8 * n + 7 + 1 := by ring
  unfold intAt intBytes
  dsimp only
  rw [natAt_front, power, width, Nat.add_sub_cancel]
  have whole : ((v % 2 ^ (8 * n + 7 + 1)).toNat : Int) = v % 2 ^ (8 * n + 7 + 1) :=
    Int.toNat_of_nonneg (Int.emod_nonneg _ (by positivity))
  have below : (v % 2 ^ (8 * n + 7 + 1)).toNat < 2 ^ (8 * n + 7 + 1) := by
    zify
    rw [whole]
    exact Int.emod_lt_of_pos _ (by positivity)
  rw [Nat.mod_eq_of_lt below]
  generalize (v % 2 ^ (8 * n + 7 + 1)).toNat = m at whole below
  have split : (2 : Int) ^ (8 * n + 7 + 1) = 2 * 2 ^ (8 * n + 7) := by ring
  rw [split] at whole ⊢
  have casts : m < 2 ^ (8 * n + 7) ↔ (m : Int) < 2 ^ (8 * n + 7) := by
    rw [← Int.ofNat_lt]
    push_cast
    rfl
  simp only [casts]
  generalize (2 : Int) ^ (8 * n + 7) = h at *
  rcases lt_or_ge v 0 with negative | positive
  · have : v % (2 * h) = v + 2 * h := by
      rw [← Int.add_emod_right, Int.emod_eq_of_lt (by omega) (by omega)]
    rw [if_neg (by omega)]
    omega
  · have : v % (2 * h) = v := Int.emod_eq_of_lt positive (by omega)
    rw [if_pos (by omega)]
    omega

/-- Entries of one length: the i-th stands where they say. -/
theorem drop_flatMap_append {α : Type} {f : α → List Byte} {n : Nat} (length : ∀ a, (f a).length = n) (rest : List Byte)
    (l : List α) {i : Nat} (within : i ≤ l.length) :
    (l.flatMap f ++ rest).drop (n * i) = (l.drop i).flatMap f ++ rest := by
  induction i generalizing l with
  | zero => rfl
  | succ i ih =>
    cases l with
    | nil => simp at within
    | cons a l =>
      rw [List.flatMap_cons, List.append_assoc, Nat.mul_succ, Nat.add_comm, ← List.drop_drop,
        List.drop_append_of_le_length (length a).ge, List.drop_eq_nil_of_le (length a).le, List.nil_append, List.drop_succ_cons]
      exact ih l (by simpa using within)

theorem length_flatMap_of_length {α : Type} {f : α → List Byte} {n : Nat} (length : ∀ a, (f a).length = n) (l : List α) :
    (l.flatMap f).length = n * l.length := by
  induction l with
  | nil => rfl
  | cons a l ih => rw [List.flatMap_cons, List.length_append, length, ih, List.length_cons, Nat.mul_succ, Nat.add_comm]

/-! ## The tables of an image -/

theorem natBytes_two (v : Nat) : natBytes 2 v = [BitVec.ofNat 8 (v / 256), BitVec.ofNat 8 v] := rfl

theorem zoneSpans_flatMap {zs : List ZoneSpan} (fits : ∀ z ∈ zs, z.a < 65536 ∧ z.b < 65536) :
    zoneSpans (zs.flatMap fun z => natBytes 2 z.a ++ natBytes 2 z.b) = zs := by
  induction zs with
  | nil => rfl
  | cons z zs ih =>
    obtain ⟨fit, fits⟩ := List.forall_mem_cons.1 fits
    have a : be (natBytes 2 z.a) = z.a := be_natBytes_of_lt fit.1
    have b : be (natBytes 2 z.b) = z.b := be_natBytes_of_lt fit.2
    rw [natBytes_two] at a b
    rw [List.flatMap_cons, natBytes_two, natBytes_two]
    simp only [List.cons_append, List.nil_append, zoneSpans, a, b, ih fits]

theorem zoneBytes_length (zs : List ZoneSpan) :
    (zs.flatMap fun z => natBytes 2 z.a ++ natBytes 2 z.b).length = 4 * zs.length :=
  length_flatMap_of_length (fun z => by simp) zs

theorem geometryBytes_length (g : GeometryRecord) : (geometryBytes g).length = 11 + 4 * g.zones.length := by
  simp only [geometryBytes, List.length_append, natBytes_length, zoneBytes_length]

/-- Every field of the record fits its bytes (R181). -/
structure GeometryRecord.Fits (g : GeometryRecord) : Prop where
  zoneCount : g.zones.length < 256
  fScan : g.fScan < 65536
  dW : g.dW < 65536
  dE : g.dE < 65536
  cE : g.cE < 65536
  minAxleSpacing : g.minAxleSpacing < 65536
  zones : ∀ z ∈ g.zones, z.a < 65536 ∧ z.b < 65536

theorem GeometryRecord.Passes.fits {minZones : Nat} {g : GeometryRecord} (h : g.Passes minZones) : g.Fits := by
  obtain ⟨count, -, fScan, dW, dE, cE, mas, -, -, zones, -, inside⟩ := h
  refine ⟨by omega, by omega, by omega, by omega, by omega, by omega, fun z mem => ?_⟩
  have := (zones z mem).least
  have := inside z mem
  omega

/-- The Geometry Record reads back (R181). -/
theorem parseGeometry_geometryBytes {g : GeometryRecord} (fits : g.Fits) : parseGeometry (geometryBytes g) = some g := by
  have length := geometryBytes_length g
  have count : (11 + 4 * g.zones.length - 11) / 4 = g.zones.length := by omega
  have spans : zoneSpans ((geometryBytes g).drop 11) = g.zones := by
    have : (geometryBytes g).drop 11 = g.zones.flatMap fun z => natBytes 2 z.a ++ natBytes 2 z.b := by
      unfold geometryBytes
      rw [List.drop_append]
      simp
    rw [this, zoneSpans_flatMap fits.zones]
  obtain ⟨zoneCount, fScan, dW, dE, cE, mas, -⟩ := fits
  have read : natAt (geometryBytes g) 0 1 = g.zones.length ∧ natAt (geometryBytes g) 1 2 = g.fScan ∧
      natAt (geometryBytes g) 3 2 = g.dW ∧ natAt (geometryBytes g) 5 2 = g.dE ∧ natAt (geometryBytes g) 7 2 = g.cE ∧
        natAt (geometryBytes g) 9 2 = g.minAxleSpacing := by
    simp only [geometryBytes, List.append_assoc]
    simp [natAt_skip, natAt_front, Nat.mod_eq_of_lt, zoneCount, fScan, dW, dE, cE, mas]
  obtain ⟨r0, r1, r3, r5, r7, r9⟩ := read
  unfold parseGeometry
  rw [length, count, r0, r1, r3, r5, r7, r9, spans]
  simp

/-- A passing Channel Record fits its bytes (R115). -/
theorem channelFault_eq_none_iff (c : ChannelRecord) :
    channelFault c = none ↔ (-8388608 ≤ c.zeroCal ∧ c.zeroCal ≤ 8388607) ∧ (1 ≤ c.gain ∧ c.gain ≤ 4294967295) ∧
      c.zeroRange ≤ 1048575 ∧ (1 ≤ c.threshold ∧ c.threshold ≤ 8388607) := by
  unfold channelFault
  rw [firstFailing_eq_none]
  simp [inRange]

theorem channelBytes_length (c : ChannelRecord) : (channelBytes c).length = 13 := by simp [channelBytes]

/-- The Channel Record reads back (R181). -/
theorem parseChannel_channelBytes {c : ChannelRecord} (zeroCal : -8388608 ≤ c.zeroCal ∧ c.zeroCal ≤ 8388607)
    (gain : c.gain < 4294967296) (zeroRange : c.zeroRange < 16777216) (threshold : c.threshold < 16777216)
    (rest : List Byte) : parseChannel (channelBytes c ++ rest) = c := by
  have signed : intAt (channelBytes c ++ rest) 0 3 = c.zeroCal := by
    unfold channelBytes
    simp only [List.append_assoc]
    exact intAt_intBytes (n := 2) _ (by norm_num; omega) (by norm_num; omega)
  unfold parseChannel
  rw [signed]
  simp only [channelBytes, intBytes, List.append_assoc]
  simp [natAt_skip, natAt_front, Nat.mod_eq_of_lt, gain, zeroRange, threshold]

theorem imageChannelBytes_length (x : Option ChannelRecord) : (imageChannelBytes x).length = 14 := by
  cases x with
  | none => rfl
  | some c => simp [imageChannelBytes, channelBytes_length]

/-- A channel of the image reads back (R185). -/
theorem imageChannel_imageChannelBytes {x : Option ChannelRecord} (passes : ∀ c, x = some c → channelFault c = none)
    (rest : List Byte) : imageChannel (imageChannelBytes x ++ rest) = some x := by
  unfold imageChannel
  cases x with
  | none => exact if_pos rfl
  | some c =>
    have passed := passes c rfl
    obtain ⟨zeroCal, gain, zeroRange, threshold⟩ := (channelFault_eq_none_iff c).1 passed
    have record : parseChannel ((imageChannelBytes (some c) ++ rest).drop 1) = c :=
      parseChannel_channelBytes zeroCal (by omega) (by omega) (by omega) rest
    have marker : natAt (imageChannelBytes (some c) ++ rest) 0 1 = 1 := rfl
    rw [record, marker]
    simp [passed]

/-- The eight channels of the image read back (R185). -/
theorem imageChannels_flatMap {cs : Vector (Option ChannelRecord) 8}
    (passes : ∀ ch : Fin 8, ∀ c, cs[ch] = some c → channelFault c = none) (rest : List Byte) :
    imageChannels (cs.toList.flatMap imageChannelBytes ++ rest) = some cs := by
  have read (ch : Fin 8) :
      imageChannel ((cs.toList.flatMap imageChannelBytes ++ rest).drop (14 * ch.val)) = some cs[ch] := by
    have within : ch.val < cs.toList.length := by simp
    rw [drop_flatMap_append imageChannelBytes_length rest _ within.le, List.drop_eq_getElem_cons within, List.flatMap_cons,
      List.append_assoc]
    exact imageChannel_imageChannelBytes (fun c held => passes ch c (by simpa using held)) _
  have r0 := read 0
  have r1 := read 1
  have r2 := read 2
  have r3 := read 3
  have r4 := read 4
  have r5 := read 5
  have r6 := read 6
  have r7 := read 7
  simp only [Fin.isValue, Fin.val_zero, Nat.mul_zero, List.drop_zero] at r0
  unfold imageChannels
  rw [r0]
  simp only [Fin.isValue, Nat.reduceMul, Fin.coe_ofNat_eq_mod, Nat.reduceMod, Nat.mul_one] at r1 r2 r3 r4 r5 r6 r7
  rw [r1, r2, r3, r4, r5, r6, r7]
  refine congrArg some (Vector.ext fun i short => ?_)
  interval_cases i <;> rfl

/-- A point of the curve reads back (R181). -/
theorem curvePointAt_curveBytes {k : Vector CurvePoint 8} (fits : ∀ i : Fin 8, k[i].v < 65536 ∧ k[i].k < 65536)
    (rest : List Byte) (i : Fin 8) : curvePointAt (curveBytes k ++ rest) i.val = k[i] := by
  have within : i.val < k.toList.length := by simp
  have behind : (curveBytes k ++ rest).drop (4 * i.val) =
      natBytes 2 k[i].v ++ natBytes 2 k[i].k ++ ((k.toList.drop (i.val + 1)).flatMap (fun p => natBytes 2 p.v ++ natBytes 2 p.k) ++ rest) := by
    unfold curveBytes
    rw [drop_flatMap_append (fun p => by simp) rest _ within.le, List.drop_eq_getElem_cons within, List.flatMap_cons,
      List.append_assoc]
    simp
  unfold curvePointAt
  rw [natAt_eq_drop, natAt_eq_drop (off := 4 * i.val + 2), ← List.drop_drop, behind, ← natAt_eq_drop]
  simp only [List.append_assoc]
  obtain ⟨v, f⟩ := fits i
  rw [natAt_front_of_lt _ v, natAt_skip _ _ _ _ le_rfl, natAt_front_of_lt _ f]

theorem parseCurve_curveBytes {k : Vector CurvePoint 8} (fits : ∀ i : Fin 8, k[i].v < 65536 ∧ k[i].k < 65536)
    (rest : List Byte) : parseCurve (curveBytes k ++ rest) = k := by
  have point := curvePointAt_curveBytes fits rest
  refine Vector.ext fun i short => ?_
  interval_cases i
  · exact point 0
  · exact point 1
  · exact point 2
  · exact point 3
  · exact point 4
  · exact point 5
  · exact point 6
  · exact point 7

theorem curveBytes_length (k : Vector CurvePoint 8) : (curveBytes k).length = 32 := by
  unfold curveBytes
  rw [length_flatMap_of_length (n := 4) fun p => by simp]
  simp

/-- Every field of the Limits fits its bytes (R181). -/
structure Limits.Fits (l : Limits) : Prop where
  trimEighths : l.trimEighths < 256
  nMin : l.nMin < 256
  minZones : l.minZones < 256
  spreadLimit : l.spreadLimit < 256
  tol : l.tol < 256
  nOn : l.nOn < 256
  nOff : l.nOff < 256
  vMin : l.vMin < 65536
  vMax : l.vMax < 65536
  accelLimit : l.accelLimit < 256
  lrLimit : l.lrLimit < 256
  endLimit : l.endLimit < 256

theorem Limits.fits_of_passes {z : Nat} {l : Limits} (passes : limitsFault z l = none) (zones : z < 256) : l.Fits := by
  rw [limitsFault_eq_none_iff] at passes
  simp only [limitsConditions, List.forall_mem_cons] at passes
  obtain ⟨c1, c2, c3, c4, c5, c6, c7, c8, c9, c10, c11, c12, -⟩ := passes
  constructor <;> omega

theorem limitsBytes_length (l : Limits) : (limitsBytes l).length = 14 := by simp [limitsBytes]

theorem parseLimits_limitsBytes {l : Limits} (fits : l.Fits) (rest : List Byte) :
    parseLimits (limitsBytes l ++ rest) = l := by
  obtain ⟨c1, c2, c3, c4, c5, c6, c7, c8, c9, c10, c11, c12⟩ := fits
  unfold parseLimits
  simp only [limitsBytes, List.append_assoc]
  simp [natAt_skip, natAt_front, Nat.mod_eq_of_lt, c1, c2, c3, c4, c5, c6, c7, c8, c9, c10, c11, c12]

/-! ## The whole image (R124, R185) -/

theorem dropLast_dropLast_natBytes (l : List Byte) (v : Nat) : (l ++ natBytes 2 v).dropLast.dropLast = l := by
  rw [natBytes_two]
  simp

theorem imageBody_length (g : GeometryRecord) (cs : Vector (Option ChannelRecord) 8) (k : Vector CurvePoint 8) (l : Limits) :
    (geometryBytes g ++ cs.toList.flatMap imageChannelBytes ++ curveBytes k ++ limitsBytes l).length =
      11 + 4 * g.zones.length + 158 := by
  simp [geometryBytes_length, length_flatMap_of_length imageChannelBytes_length, curveBytes_length, limitsBytes_length]

/-- The image of passing tables is judged good and gives them back. -/
theorem parseImage_imageBytes {g : GeometryRecord} {cs : Vector (Option ChannelRecord) 8} {k : Vector CurvePoint 8}
    {l : Limits} (geometry : geometryFault l.minZones g = none)
    (channels : ∀ ch : Fin 8, ∀ c, cs[ch] = some c → channelFault c = none) (curve : curveFault k = none)
    (limits : limitsFault g.zones.length l = none) :
    parseImage (imageBytes g cs k l) = some { geometry := g, channels := cs, curve := k, limits := l } := by
  have record := (geometryFault_eq_none_iff _ _).1 geometry
  have fits := record.fits
  have points : ∀ i : Fin 8, k[i].v < 65536 ∧ k[i].k < 65536 := fun i => by
    have := ((curveFault_eq_none_iff k).1 curve).1 i
    omega
  have fields := Limits.fits_of_passes limits fits.zoneCount
  have length := imageBody_length g cs k l
  have geo := geometryBytes_length g
  have chs := length_flatMap_of_length imageChannelBytes_length cs.toList
  rw [Vector.length_toList] at chs
  unfold imageBytes
  dsimp only
  generalize body : geometryBytes g ++ cs.toList.flatMap imageChannelBytes ++ curveBytes k ++ limitsBytes l = b at length
  generalize sum : frameCheck b = c
  have tail : b = geometryBytes g ++ (cs.toList.flatMap imageChannelBytes ++ (curveBytes k ++ limitsBytes l)) := by
    rw [← body]
    simp only [List.append_assoc]
  have zone : natAt (b ++ natBytes 2 c.toNat) 0 1 = g.zones.length := by
    rw [natAt_append_left _ _ (by omega), tail, natAt_append_left _ _ (by omega)]
    simp only [geometryBytes, List.append_assoc]
    exact natAt_front_of_lt _ fits.zoneCount
  have word : BitVec.ofNat 16 (natAt (b ++ natBytes 2 c.toNat) (11 + 4 * g.zones.length + 158) 2) = c := by
    have value : natAt (natBytes 2 c.toNat ++ []) 0 2 = c.toNat := natAt_front_of_lt _ c.isLt
    rw [List.append_nil] at value
    rw [natAt_behind _ _ _ _ length, value, BitVec.ofNat_toNat, BitVec.setWidth_eq]
  have front : (b ++ natBytes 2 c.toNat).take (11 + 4 * g.zones.length) = geometryBytes g := by
    rw [tail, List.append_assoc, List.take_append_of_le_length geo.ge, List.take_of_length_le geo.le]
  have behind : (b ++ natBytes 2 c.toNat).drop (11 + 4 * g.zones.length) =
      cs.toList.flatMap imageChannelBytes ++ (curveBytes k ++ (limitsBytes l ++ natBytes 2 c.toNat)) := by
    rw [tail, List.append_assoc, List.drop_append_of_le_length geo.ge, List.drop_eq_nil_of_le geo.le, List.nil_append]
    simp only [List.append_assoc]
  have third : (b ++ natBytes 2 c.toNat).drop (11 + 4 * g.zones.length + 112) =
      curveBytes k ++ (limitsBytes l ++ natBytes 2 c.toNat) := by
    rw [← List.drop_drop, behind, List.drop_append_of_le_length (by omega), List.drop_eq_nil_of_le (by omega), List.nil_append]
  have fourth : (b ++ natBytes 2 c.toNat).drop (11 + 4 * g.zones.length + 144) = limitsBytes l ++ natBytes 2 c.toNat := by
    have curveLength := curveBytes_length k
    rw [show 11 + 4 * g.zones.length + 144 = 11 + 4 * g.zones.length + 112 + 32 by ring, ← List.drop_drop, third,
      List.drop_append_of_le_length curveLength.ge, List.drop_eq_nil_of_le curveLength.le, List.nil_append]
  unfold parseImage
  dsimp only
  rw [zone, dropLast_dropLast_natBytes, word, front, behind, third, fourth, parseGeometry_geometryBytes fits,
    imageChannels_flatMap channels, parseCurve_curveBytes points, parseLimits_limitsBytes fields, ← sum,
    checkPasses_frameCheck]
  simp [length, geometry, curve, limits]

end Sys2Proof.Machine

open Sys2Proof Sys2Proof.Machine

/-- Settles O9: every table of the image reads back from its place. -/
theorem committedImageLoadsBack : Obligations.CommittedImageLoadsBack := by
  unfold Obligations.CommittedImageLoadsBack
  exact fun g cs k l geometry channels curve limits => parseImage_imageBytes geometry channels curve limits
end

section
/-! Frames accepted, rejected and hunted for in a stream (R14 to R16, R178 to R180). -/

namespace Sys2Proof.Machine

/-! ## Frames written and read (R15, R180) -/

theorem sampleBytes_length (x : Sample) : (sampleBytes x).length = 4 := by simp [sampleBytes]

theorem SampleStatus.ofCode_code (x : SampleStatus) : SampleStatus.ofCode x.code = some x := by cases x <;> rfl

theorem Detector.ofCode_code (x : Detector) : Detector.ofCode x.code = some x := by cases x <;> rfl

/-- The value and status byte of one entry. -/
theorem rawSamples_sampleBytes {x : Sample} (low : -8388608 ≤ x.value) (high : x.value ≤ 8388607) (rest : List Byte) :
    rawSamples (sampleBytes x ++ rest) = (x.value, BitVec.ofNat 8 x.status.code) :: rawSamples rest := by
  have value : intAt (intBytes 3 x.value ++ []) 0 3 = x.value :=
    intAt_intBytes (n := 2) [] (by norm_num; omega) (by norm_num; omega)
  rw [List.append_nil] at value
  exact congrArg (fun v => (v, BitVec.ofNat 8 x.status.code) :: rawSamples rest) value

theorem samplesOf_rawSamples {xs : List Sample} (values : ∀ x ∈ xs, -8388608 ≤ x.value ∧ x.value ≤ 8388607) :
    samplesOf (rawSamples (xs.flatMap sampleBytes)) = some xs := by
  induction xs with
  | nil => rfl
  | cons x xs ih =>
    obtain ⟨value, values⟩ := List.forall_mem_cons.1 values
    have code : (BitVec.ofNat 8 x.status.code).toNat = x.status.code := by cases x.status <;> rfl
    rw [List.flatMap_cons, rawSamples_sampleBytes value.1 value.2]
    simp only [samplesOf, code, SampleStatus.ofCode_code, ih values]

theorem scanEntries_of_length {p : List Byte} {m : Nat} (one : 1 ≤ m) (eight : m ≤ 8) (length : p.length = 2 + 4 * m) :
    scanEntries p = some m := by
  simp [scanEntries, length, one, eight]

/-- A frame that fits and sums correctly is examined by its kind. -/
theorem examine_of_sum {kind : Byte} {p : List Byte} {check : Word16} (geometry : Option GeometryRecord)
    (fits : p.length ≤ 34) (sums : checkPasses (checkedBytes kind p) check = true) :
    examine geometry kind p check =
      if kind = kindScan then examineScan geometry p
      else if kind = kindWheel then examineWheel p
      else if kind = kindRequest then examineRequest p
      else .rejected reasonKind := by
  unfold examine maxInboundPayload
  rw [if_neg (by omega), if_neg (by rw [sums]; decide)]

theorem examineScan_payload {geometry : Option GeometryRecord} {number : Word16} {xs : List Sample}
    (valid : (Inbound.scan number xs).valid geometry = true) :
    examineScan geometry (Inbound.scan number xs).payload = .accepted (.scan number xs) := by
  simp only [Inbound.valid, Bool.and_eq_true, decide_eq_true_eq, List.all_eq_true, Option.all_eq_true, beq_iff_eq] at valid
  obtain ⟨⟨⟨one, eight⟩, values⟩, channels⟩ := valid
  have length : (Inbound.scan number xs).payload.length = 2 + 4 * xs.length := by
    simp [Inbound.payload, length_flatMap_of_length sampleBytes_length]
  have fits : ((geometry.map fun g => xs.length != 2 * g.zones.length).getD false) = false := by
    cases geometry with
    | none => rfl
    | some g => simpa using channels g rfl
  have samples : (Inbound.scan number xs).payload.drop 2 = xs.flatMap sampleBytes := rfl
  have word : natAt (Inbound.scan number xs).payload 0 2 = number.toNat := natAt_front_of_lt _ number.isLt
  unfold examineScan
  rw [scanEntries_of_length one eight length, samples, samplesOf_rawSamples values, word]
  simp [fits]

theorem examineWheel_payload {geometry : Option GeometryRecord} {x : Detector} {number : Word16} {fraction : Nat}
    (valid : (Inbound.wheel x number fraction).valid geometry = true) :
    examineWheel (Inbound.wheel x number fraction).payload = .accepted (.wheel x number fraction) := by
  have low : fraction ≤ 15 := by simpa [Inbound.valid] using valid
  have length : (Inbound.wheel x number fraction).payload.length = 4 := by simp [Inbound.payload]
  have detector : natAt (Inbound.wheel x number fraction).payload 0 1 = x.code := by cases x <;> rfl
  have word : natAt (Inbound.wheel x number fraction).payload 1 2 = number.toNat := by
    simp only [Inbound.payload, List.append_assoc]
    rw [natAt_skip _ _ _ _ le_rfl]
    exact natAt_front_of_lt _ number.isLt
  have sixteenth : natAt (Inbound.wheel x number fraction).payload 3 1 = fraction := by
    simp only [Inbound.payload, List.append_assoc]
    rw [natAt_skip _ _ _ _ (by decide), natAt_skip _ _ _ _ le_rfl, natAt_natBytes]
    omega
  unfold examineWheel
  rw [length, detector, word, sixteenth, Detector.ofCode_code]
  simp [low]

theorem examineRequest_payload (r : Request) : examineRequest (Inbound.request r).payload = .accepted (.request r) := by
  simp [examineRequest, Inbound.payload, byteAt]

/-- R15: a frame written in the layouts is accepted with its content. -/
theorem examine_written {geometry : Option GeometryRecord} {f : Inbound} (valid : f.valid geometry = true) :
    examine geometry f.kind f.payload f.check = .accepted f := by
  have sums : checkPasses (checkedBytes f.kind f.payload) f.check = true := checkPasses_frameCheck _
  have fits : f.payload.length ≤ 34 := by
    cases f with
    | scan number xs =>
      simp only [Inbound.valid, Bool.and_eq_true, decide_eq_true_eq] at valid
      obtain ⟨⟨⟨-, eight⟩, -⟩, -⟩ := valid
      simp only [Inbound.payload, List.length_append, natBytes_length, length_flatMap_of_length sampleBytes_length]
      omega
    | wheel x number fraction => simp [Inbound.payload]
    | request r =>
      have short : r.payload.length ≤ 32 := by simpa [Inbound.valid] using valid
      simp only [Inbound.payload, List.length_cons]
      omega
  rw [examine_of_sum geometry fits sums]
  cases f with
  | scan number xs => exact examineScan_payload valid
  | wheel x number fraction => exact examineWheel_payload valid
  | request r => exact examineRequest_payload r

/-! ## The hunt (R14) -/

/-- Fuel beyond the bytes is not used. -/
theorem deframeWith_of_le {f g : Nat} {bytes : List Byte} (hf : bytes.length ≤ f) (hg : bytes.length ≤ g) :
    deframeWith f bytes = deframeWith g bytes := by
  induction f generalizing g bytes with
  | zero =>
    obtain rfl := List.eq_nil_of_length_eq_zero (Nat.le_zero.1 hf)
    cases g <;> rfl
  | succ f ih =>
    cases bytes with
    | nil => cases g <;> rfl
    | cons b rest =>
      obtain ⟨g, rfl⟩ : ∃ n, g = n + 1 := ⟨g - 1, by simp at hg; omega⟩
      have shorter {l : List Byte} (part : l.length ≤ rest.length) : deframeWith f l = deframeWith g l :=
        ih (part.trans (by simpa using hf)) (part.trans (by simpa using hg))
      unfold deframeWith
      split
      · split
        next kind hi lo body =>
          dsimp only
          rw [shorter le_rfl, shorter (l := body.drop _) (by simp; omega)]
        · rfl
      · exact shorter le_rfl

theorem deframeWith_eq_deframe {f : Nat} {bytes : List Byte} (enough : bytes.length ≤ f) :
    deframeWith f bytes = deframe bytes := deframeWith_of_le enough le_rfl

/-- A byte that is no start delimiter is passed over. -/
theorem deframe_cons_of_ne {b : Byte} (rest : List Byte) (noise : b ≠ 0xA5) : deframe (b :: rest) = deframe rest :=
  if_neg noise

theorem deframe_noise {noise : List Byte} (quiet : ∀ b ∈ noise, b ≠ 0xA5) (rest : List Byte) :
    deframe (noise ++ rest) = deframe rest := by
  induction noise with
  | nil => rfl
  | cons b noise ih =>
    obtain ⟨first, quiet⟩ := List.forall_mem_cons.1 quiet
    rw [List.cons_append, deframe_cons_of_ne _ first, ih quiet]

/-- A length above 34: the hunt resumes at the byte behind the delimiter. -/
theorem deframe_of_oversized {kind hi lo : Byte} (rest : List Byte) (long : 34 < be [hi, lo]) :
    deframe (0xA5 :: kind :: hi :: lo :: rest) =
      (.oversizedPayloadLength (BitVec.ofNat 16 (be [hi, lo])) :: (deframe (kind :: hi :: lo :: rest)).1,
        (deframe (kind :: hi :: lo :: rest)).2) := by
  show (if maxInboundPayload < be [hi, lo] then _ else _) = _
  exact if_pos long

/-- A whole frame: the hunt goes on behind its check. -/
theorem deframe_of_frame {kind hi lo : Byte} {p : List Byte} (check : Word16) (rest : List Byte) (short : p.length ≤ 34)
    (length : be [hi, lo] = p.length) :
    deframe (0xA5 :: kind :: hi :: lo :: (p ++ natBytes 2 check.toNat ++ rest)) =
      (frameCommand kind p check :: (deframe rest).1, (deframe rest).2) := by
  have whole : ¬(p ++ natBytes 2 check.toNat ++ rest).length < p.length + 2 := by
    simp only [List.length_append, natBytes_length]
    omega
  have behind : (p ++ natBytes 2 check.toNat ++ rest).drop (p.length + 2) = rest := by simp [List.append_assoc, List.drop_append]
  have front : (p ++ natBytes 2 check.toNat ++ rest).take p.length = p := by simp [List.append_assoc]
  have word : BitVec.ofNat 16 (natAt (p ++ natBytes 2 check.toNat ++ rest) p.length 2) = check := by
    have value : natAt (natBytes 2 check.toNat ++ rest) 0 2 = check.toNat := natAt_front_of_lt _ check.isLt
    rw [List.append_assoc, natAt_behind _ _ _ _ rfl, value, BitVec.ofNat_toNat, BitVec.setWidth_eq]
  generalize body : p ++ natBytes 2 check.toNat ++ rest = q at whole behind front word
  have room : rest.length ≤ (kind :: hi :: lo :: q).length := by
    have : q.length = p.length + 2 + rest.length := by
      rw [← body]
      simp only [List.length_append, natBytes_length]
    simp only [List.length_cons]
    omega
  show (if maxInboundPayload < be [hi, lo] then _
    else if q.length < be [hi, lo] + 2 then _
    else
      (frameCommand kind (q.take (be [hi, lo])) (BitVec.ofNat 16 (natAt q (be [hi, lo]) 2)) ::
          (deframeWith (kind :: hi :: lo :: q).length (q.drop (be [hi, lo] + 2))).1,
        (deframeWith (kind :: hi :: lo :: q).length (q.drop (be [hi, lo] + 2))).2)) = _
  rw [length, if_neg (show ¬maxInboundPayload < p.length from Nat.not_lt.2 short), if_neg whole, front, behind, word,
    deframeWith_eq_deframe room]

theorem ofNat_be_pair (hi lo : Byte) : BitVec.ofNat 16 (be [hi, lo]) = hi ++ lo := by
  apply BitVec.eq_of_toNat_eq
  rw [BitVec.toNat_append, ← Nat.shiftLeft_add_eq_or_of_lt lo.isLt, Nat.shiftLeft_eq]
  have := hi.isLt
  have := lo.isLt
  simp only [be, List.foldl_cons, List.foldl_nil, BitVec.toNat_ofNat]
  omega

/-! ## Frames rejected (R15, R16) -/

theorem rejecting_of_examine {s : State} {kind : Byte} {p : List Byte} {check : Word16} {reason : Nat}
    (started : s.part ≠ .starting) (rejected : examine s.cal.geometry kind p check = .rejected reason) :
    Host.Outcome.next (receiveFrame kind p check s) = s.rejecting reason := by
  unfold receiveFrame
  rw [if_neg started, rejected]
  rfl

theorem receiveFrame_of_starting {s : State} (kind : Byte) (p : List Byte) (check : Word16) (starting : s.part = .starting) :
    receiveFrame kind p check s = s := if_pos starting

theorem examine_of_bad_sum {kind : Byte} {p : List Byte} {check : Word16} (geometry : Option GeometryRecord)
    (fits : p.length ≤ 34) (wrong : checkPasses (checkedBytes kind p) check = false) :
    examine geometry kind p check = .rejected 1 := by
  unfold examine maxInboundPayload
  rw [if_neg (by omega), if_pos wrong]
  rfl

/-- R15, step 3: no number of entries fits the length. -/
theorem examineScan_of_length {p : List Byte} (geometry : Option GeometryRecord)
    (odd : ∀ m, 1 ≤ m → m ≤ 8 → p.length ≠ 2 + 4 * m) : examineScan geometry p = .rejected 3 := by
  have none : scanEntries p = none := by
    unfold scanEntries
    exact if_neg fun ⟨length, one, eight⟩ => odd _ one eight length
  unfold examineScan
  rw [none]
  rfl

/-- R15, step 4: the number of entries is not 2Z. -/
theorem examineScan_of_channels {p : List Byte} {g : GeometryRecord} {m : Nat} (one : 1 ≤ m) (eight : m ≤ 8)
    (length : p.length = 2 + 4 * m) (other : m ≠ 2 * g.zones.length) : examineScan (some g) p = .rejected 4 := by
  unfold examineScan
  rw [scanEntries_of_length one eight length]
  simp [other, reasonChannels]

theorem SampleStatus.ofCode_eq_none {n : Nat} (high : 2 < n) : SampleStatus.ofCode n = none := by
  obtain ⟨k, rfl⟩ : ∃ k, n = k + 3 := ⟨n - 3, by omega⟩
  rfl

/-- R15, step 5: an entry with an undefined status. -/
theorem samplesOf_eq_none {q : List Byte} {m i : Nat} (length : q.length = 4 * m) (within : i < m)
    (undefined : 2 < natAt q (4 * i + 3) 1) : samplesOf (rawSamples q) = none := by
  induction i generalizing q m with
  | zero =>
    obtain ⟨m, rfl⟩ : ∃ k, m = k + 1 := ⟨m - 1, by omega⟩
    match q, length with
    | a :: b :: c :: st :: rest, _ =>
      have code : SampleStatus.ofCode st.toNat = none := by
        refine SampleStatus.ofCode_eq_none ?_
        simpa [natAt, be] using undefined
      simp only [rawSamples, samplesOf, code]
  | succ i ih =>
    obtain ⟨m, rfl⟩ : ∃ k, m = k + 1 := ⟨m - 1, by omega⟩
    match q, length with
    | a :: b :: c :: st :: rest, length =>
      have later := ih (q := rest) (m := m) (by simpa [Nat.mul_succ] using length) (by omega) undefined
      simp only [rawSamples, samplesOf, later]
      cases SampleStatus.ofCode st.toNat <;> rfl

theorem examineScan_of_status {p : List Byte} {geometry : Option GeometryRecord} {m i : Nat} (one : 1 ≤ m) (eight : m ≤ 8)
    (length : p.length = 2 + 4 * m) (channels : ∀ g, geometry = some g → m = 2 * g.zones.length) (within : i < m)
    (undefined : 2 < natAt p (5 + 4 * i) 1) : examineScan geometry p = .rejected 5 := by
  have fits : ((geometry.map fun g => m != 2 * g.zones.length).getD false) = false := by
    cases geometry with
    | none => rfl
    | some g => simpa using channels g rfl
  have none : samplesOf (rawSamples (p.drop 2)) = none := by
    refine samplesOf_eq_none (m := m) (i := i) (by rw [List.length_drop]; omega) within ?_
    have : natAt (p.drop 2) (4 * i + 3) 1 = natAt p (5 + 4 * i) 1 := by
      unfold natAt
      rw [List.drop_drop]
      congr 3
      omega
    rwa [this]
  unfold examineScan
  rw [scanEntries_of_length one eight length]
  simp only [fits, none]
  rfl

theorem Detector.ofCode_eq_none {n : Nat} (undefined : n = 0 ∨ 4 < n) : Detector.ofCode n = none := by
  rcases undefined with rfl | high
  · rfl
  · obtain ⟨k, rfl⟩ : ∃ k, n = k + 5 := ⟨n - 5, by omega⟩
    rfl

theorem examineWheel_of_field {p : List Byte} (length : p.length = 4)
    (undefined : natAt p 0 1 = 0 ∨ 4 < natAt p 0 1 ∨ 15 < natAt p 3 1) : examineWheel p = .rejected 5 := by
  unfold examineWheel
  rw [if_neg (by simpa using length)]
  split
  next x held =>
    have high : 15 < natAt p 3 1 := by
      rcases undefined with low | high | high
      · exact nomatch (Detector.ofCode_eq_none (.inl low)).symm.trans held
      · exact nomatch (Detector.ofCode_eq_none (.inr high)).symm.trans held
      · exact high
    rw [if_neg (by omega)]
    rfl
  · rfl

end Sys2Proof.Machine

open Sys2Proof Sys2Proof.Machine

/-- Settles O10: the layouts of R180 read back, and the check of R179 sums correctly. -/
theorem acceptedFramesReadBack : Obligations.AcceptedFramesReadBack := by
  unfold Obligations.AcceptedFramesReadBack
  exact fun geometry f valid => examine_written valid

/-- Settles O11: noise by induction, then one frame, the fuel left over not mattering. -/
theorem deframeReadsTheNextFrame : Obligations.DeframeReadsTheNextFrame := by
  unfold Obligations.DeframeReadsTheNextFrame
  refine ⟨fun noise rest kind p check quiet short => ?_, fun noise rest kind hi lo quiet long => ?_⟩
  · have length : be (natBytes 2 p.length) = p.length := be_natBytes_of_lt (show p.length < 65536 by omega)
    rw [natBytes_two] at length
    rw [List.append_assoc, deframe_noise quiet]
    unfold envelope checkedBytes startDelimiter
    rw [natBytes_two p.length]
    simpa only [List.cons_append, List.nil_append, List.append_assoc] using
      deframe_of_frame (kind := kind) check rest short length
  · rw [deframe_noise quiet, deframe_of_oversized rest long, ofNat_be_pair]

/-- Settles O12: the checks of R15 in their order, each failing one with its reason. -/
theorem rejectedFramesAreReported : Obligations.RejectedFramesAreReported := by
  unfold Obligations.RejectedFramesAreReported
  intro s k p c n
  refine ⟨fun starting => ?_, fun started => ⟨?_, fun long => ?_, fun fits => ⟨fun wrong => ?_, fun sums => ?_⟩⟩⟩
  · have none (kind : Byte) := receiveFrame_of_starting kind p c starting
    refine ⟨?_, ?_, congrArg _ (none _), congrArg _ (none _), congrArg _ (none _), congrArg _ (none _)⟩
    · exact congrArg _ (if_pos starting)
    · exact congrArg _ (if_pos (.inl starting))
  · exact congrArg _ (if_neg started)
  · exact congrArg _ (if_neg (not_or.2 ⟨started, Nat.not_le.2 long⟩))
  · have rejected := rejecting_of_examine started (examine_of_bad_sum s.cal.geometry fits wrong)
    exact ⟨rejected, by rintro rfl; exact rejected, by rintro rfl; exact rejected, by rintro rfl; exact rejected⟩
  · have examined := examine_of_sum s.cal.geometry fits sums
    have scan {reason : Nat} (kind : k = kindScan) (rejected : examineScan s.cal.geometry p = .rejected reason) :
        exec (.scanFrame p c) s = s.rejecting reason := by
      rw [if_pos kind, kind, rejected] at examined
      exact rejecting_of_examine started examined
    have wheel {reason : Nat} (kind : k = kindWheel) (rejected : examineWheel p = .rejected reason) :
        exec (.wheelFrame p c) s = s.rejecting reason := by
      subst kind
      rw [if_neg (by decide), if_pos rfl, rejected] at examined
      exact rejecting_of_examine started examined
    refine ⟨fun noScan noWheel noRequest => ?_, fun kind odd => ?_, fun kind odd => ?_, fun kind short => ?_,
      fun g m kind held one eight length other => ?_, fun m kind one eight length channels ⟨i, within, undefined⟩ => ?_,
      fun kind length undefined => ?_⟩
    · rw [if_neg noScan, if_neg noWheel, if_neg noRequest] at examined
      exact rejecting_of_examine started examined
    · exact scan kind (examineScan_of_length _ odd)
    · refine wheel kind ?_
      unfold examineWheel
      rw [if_pos odd]
      rfl
    · subst kind
      have rejected : examineRequest p = .rejected 3 := by
        unfold examineRequest
        rw [if_pos short]
        rfl
      rw [if_neg (by decide), if_neg (by decide), if_pos rfl, rejected] at examined
      exact rejecting_of_examine started examined
    · exact scan kind (held ▸ examineScan_of_channels one eight length other)
    · exact scan kind (examineScan_of_status one eight length channels within undefined)
    · exact wheel kind (examineWheel_of_field length undefined)
end

section
/-! Accepted scans, loss of sync, wheel and request frames (R17 to R29, R76, R83, R95, R97, R166). -/

namespace Sys2Proof.Machine

/-! ## Counts and causes of a scan -/

/-- From s to t the counters count `n`, and CHANNEL_FAULT and PHANTOM_WHEEL take their causes in turn. -/
structure Told (s t : State) (n : Counter → Nat) (faults wheels : List Nat) : Prop where
  counts : s.Counts t n [.channelFault, .phantomWheel]
  faults : t.notices.entry .channelFault =
    (s.notices.entry .channelFault).after (s.notices.level .channelFault) faults
  wheels : t.notices.entry .phantomWheel =
    (s.notices.entry .phantomWheel).after (s.notices.level .phantomWheel) wheels

theorem State.Counts.level {s t : State} {n : Counter → Nat} {e : List NoticeKind} (h : s.Counts t n e) (k : NoticeKind) :
    t.notices.level k = s.notices.level k := by
  unfold NoticeUnit.level
  rw [h.2.1]

theorem Told.trans {s t u : State} {n m : Counter → Nat} {f g w v : List Nat} (h : Told s t n f w) (k : Told t u m g v)
    (reads : ∀ (c : Counter) (j : Nat), m (c.counted j) = m c) :
    Told s u (fun c => n c + m c) (f ++ g) (w ++ v) := by
  refine ⟨(h.counts.trans k.counts reads).mono (by simp), ?_, ?_⟩
  · rw [k.faults, h.counts.level, h.faults, NoticeEntry.after_append]
  · rw [k.wheels, h.counts.level, h.wheels, NoticeEntry.after_append]

/-- Counts that touch neither kind. -/
theorem State.Counts.told {s t : State} {n : Counter → Nat} (h : s.Counts t n []) : Told s t n [] [] :=
  ⟨h.mono (by simp), h.2.2 _ (by decide) (by simp), h.2.2 _ (by decide) (by simp)⟩

theorem Told.refl (s : State) : Told s s (fun _ => 0) [] [] := (State.Counts.refl s).told

theorem Told.of_eq {s t : State} {n m : Counter → Nat} {f w : List Nat} (h : Told s t n f w) (eq : ∀ c, n c = m c) :
    Told s t m f w := (funext eq : n = m) ▸ h

/-- A tale told of states with the same counters and notices. -/
theorem Told.congr {s s' t t' : State} {n : Counter → Nat} {f w : List Nat} (h : Told s t n f w)
    (counters : s'.counters = s.counters) (notices : s'.notices = s.notices) (counters' : t'.counters = t.counters)
    (notices' : t'.notices = t.notices) : Told s' t' n f w := by
  refine ⟨h.counts.congr counters notices counters' notices', ?_, ?_⟩
  · rw [notices, notices']
    exact h.faults
  · rw [notices, notices']
    exact h.wheels

theorem raiseCause_channelFault_told (ch : Nat) (s : State) :
    Told s (raiseCause .channelFault ch s) (fun _ => 0) [ch] [] :=
  ⟨(raiseCause_counts _ ch s).mono (by simp), s.notices.entry_raises .channelFault [ch],
    s.notices.entry_raise_of_ne (by decide) ch⟩

theorem raiseCause_phantomWheel_told (ch : Nat) (s : State) :
    Told s (raiseCause .phantomWheel ch s) (fun _ => 0) [] [ch] :=
  ⟨(raiseCause_counts _ ch s).mono (by simp), s.notices.entry_raise_of_ne (by decide) ch,
    s.notices.entry_raises .phantomWheel [ch]⟩

/-! ## One zone of a scan -/

/-- A phantom is reported: the train is RUNNING and not DISTURBED (R95). -/
def State.reportsPhantoms (s : State) : Bool :=
  decide (s.train.state = .running ∧ (s.train.ctx.map TrainContext.disturbed).getD false = false)

theorem phantom_frame (z : Fin 4) (r : Rail) (s : State) :
    phantom z r s = { s with counters := (phantom z r s).counters, notices := (phantom z r s).notices } := by
  unfold phantom
  dsimp only
  split <;> rfl

theorem phantom_told (z : Fin 4) (r : Rail) (s : State) :
    Told s (phantom z r s) (Counter.ofEvent .phantoms 1) [] (if s.reportsPhantoms then [(channelOf z r).val] else []) := by
  have counted := (countEvent_counts .phantoms 1 s).told
  unfold phantom State.reportsPhantoms
  by_cases reports : s.train.state = .running ∧ (s.train.ctx.map TrainContext.disturbed).getD false = false
  · simp only [countEvent_train, reports, and_self, decide_true, if_true]
    exact (counted.trans (raiseCause_phantomWheel_told (channelOf z r).val _) fun _ _ => rfl).of_eq fun _ => rfl
  · simp only [countEvent_train, reports, decide_false, Bool.false_eq_true, if_false]
    exact counted

theorem phantoms_told (z : Fin 4) (rs : List Rail) (s : State) :
    (rs.foldl (fun s p => phantom z p s) s =
        { s with
          counters := (rs.foldl (fun s p => phantom z p s) s).counters
          notices := (rs.foldl (fun s p => phantom z p s) s).notices }) ∧
      Told s (rs.foldl (fun s p => phantom z p s) s) (Counter.ofEvent .phantoms rs.length) []
        (if s.reportsPhantoms then rs.map fun r => (channelOf z r).val else []) := by
  induction rs generalizing s with
  | nil =>
    have still := (Told.refl s).of_eq (m := Counter.ofEvent .phantoms 0) (by simp)
    exact ⟨rfl, by simpa using still⟩
  | cons r rs ih =>
    obtain ⟨frame, told⟩ := ih (phantom z r s)
    have first := phantom_frame z r s
    have told' := phantom_told z r s
    rw [List.foldl_cons]
    generalize phantom z r s = m at frame told first told'
    have same : m.reportsPhantoms = s.reportsPhantoms := by rw [first]; rfl
    refine ⟨?_, ?_⟩
    · rw [frame, first]
    · have both := told'.trans told fun _ _ => rfl
      rw [same] at both
      have total := both.of_eq fun c => Counter.ofEvent_add .phantoms 1 rs.length c
      rw [List.length_cons, Nat.add_comm]
      cases reports : s.reportsPhantoms <;> simpa [reports] using total

theorem failing_told (z : Fin 4) (rs : List Rail) (s : State) :
    (rs.foldl (fun s p => raiseCause .channelFault (channelOf z p).val s) s =
        { s with notices := (rs.foldl (fun s p => raiseCause .channelFault (channelOf z p).val s) s).notices }) ∧
      Told s (rs.foldl (fun s p => raiseCause .channelFault (channelOf z p).val s) s) (fun _ => 0)
        (rs.map fun r => (channelOf z r).val) [] := by
  induction rs generalizing s with
  | nil => exact ⟨rfl, .refl s⟩
  | cons r rs ih =>
    obtain ⟨frame, told⟩ := ih (raiseCause .channelFault (channelOf z r).val s)
    refine ⟨?_, ?_⟩
    · rw [List.foldl_cons, frame]
      rfl
    · exact ((raiseCause_channelFault_told _ s).trans told fun _ _ => rfl).of_eq fun _ => rfl

/-- What scans at zones make of the state: units, records, counts and causes. -/
structure ScansDone (y : Fin 4 → ZoneScan) (zs : List (Fin 4)) (s t : State) : Prop where
  frame :
    t = { s with
          zones := t.zones
          axles :=
            { s.axles with
              queue := s.axles.queue.map (AxleRecord.takeEstimates s.axles.lastOn (zs.flatMap fun z => (y z).handed)) }
          counters := t.counters, notices := t.notices }
  zones : ∀ z : Fin 4, t.zones[z] = if z ∈ zs then (y z).unit else s.zones[z]
  told : Told s t
    (fun c =>
      c.ofEvent .zoneRejects (rejects (zs.flatMap fun z => (y z).handed)) +
        c.ofEvent .phantoms (zs.flatMap fun z => (y z).phantoms).length)
    (zs.flatMap fun z => (y z).failing.map fun r => (channelOf z r).val)
    (if s.reportsPhantoms then zs.flatMap fun z => (y z).phantoms.map fun r => (channelOf z r).val else [])

/-- The outcome of one zone taken into the state. -/
def takeZoneScan (r : ZoneScan) (z : Fin 4) (s : State) : State :=
  r.failing.foldl (fun s p => raiseCause .channelFault (channelOf z p).val s)
    (r.phantoms.foldl (fun s p => phantom z p s) (handEstimates r.handed (setZone z r.unit s)))

theorem takeZoneScan_done (y : Fin 4 → ZoneScan) (z : Fin 4) (s : State) :
    ScansDone y [z] s (takeZoneScan (y z) z s) := by
  have handed := handEstimates_eq (y z).handed (setZone z (y z).unit s)
  have rejected := (handEstimates_counts (y z).handed (setZone z (y z).unit s)).told
  unfold takeZoneScan
  generalize handEstimates (y z).handed (setZone z (y z).unit s) = m1 at handed rejected
  obtain ⟨frame2, told2⟩ := phantoms_told z (y z).phantoms m1
  generalize (y z).phantoms.foldl (fun s p => phantom z p s) m1 = m2 at frame2 told2
  obtain ⟨frame3, told3⟩ := failing_told z (y z).failing m2
  generalize (y z).failing.foldl (fun s p => raiseCause .channelFault (channelOf z p).val s) m2 = t at frame3 told3
  have zones : t.zones = (setZone z (y z).unit s).zones := by rw [frame3, frame2, handed]
  refine ⟨?_, fun x => ?_, ?_⟩
  · rw [List.flatMap_singleton, zones, frame3, frame2, handed]
    rfl
  · rw [zones, setZone_get]
    by_cases same : x = z
    · subst same
      simp
    · rw [if_neg same, if_neg (by simpa using same)]
  · have reports : m1.reportsPhantoms = s.reportsPhantoms := by rw [handed]; rfl
    rw [reports] at told2
    simp only [List.flatMap_singleton]
    have all := (rejected.trans told2 fun _ _ => rfl).trans told3 fun _ _ => rfl
    simp only [Nat.add_zero, List.nil_append, List.append_nil] at all
    exact all.congr rfl rfl rfl rfl

/-- Scans at distinct zones, each reading its unit as it stood. -/
theorem takeZoneScans_done (y : Fin 4 → ZoneScan) (zs : List (Fin 4)) (s : State) (distinct : zs.Nodup) :
    ScansDone y zs s (zs.foldl (fun s z => takeZoneScan (y z) z s) s) := by
  induction zs generalizing s with
  | nil =>
    have none : AxleRecord.takeEstimates s.axles.lastOn [] = id := rfl
    refine ⟨by simp [none], fun z => by simp, ?_⟩
    have still := (Told.refl s).of_eq (m := fun c : Counter => c.ofEvent .zoneRejects 0 + c.ofEvent .phantoms 0) (by simp)
    simpa using still
  | cons z zs ih =>
    obtain ⟨fresh, distinct⟩ := List.nodup_cons.1 distinct
    have first := takeZoneScan_done y z s
    have rest := ih (takeZoneScan (y z) z s) distinct
    rw [List.foldl_cons]
    generalize takeZoneScan (y z) z s = m at first rest
    generalize zs.foldl (fun s z => takeZoneScan (y z) z s) m = t at rest
    refine ⟨?_, fun x => ?_, ?_⟩
    · have lastOn : m.axles.lastOn = s.axles.lastOn := by rw [first.frame]
      have queue : m.axles.queue = s.axles.queue.map (AxleRecord.takeEstimates s.axles.lastOn (y z).handed) := by
        rw [first.frame]
        simp
      rw [rest.frame, lastOn, queue, first.frame]
      simp only [List.map_map, List.flatMap_cons]
      congr 3
      funext a
      exact (AxleRecord.takeEstimates_append _ _ _ a).symm
    · rw [rest.zones, first.zones]
      by_cases same : x = z
      · subst same
        simp [fresh]
      · by_cases later : x ∈ zs <;> simp [same, later]
    · have reports : m.reportsPhantoms = s.reportsPhantoms := by rw [first.frame]; rfl
      have both := first.told.trans rest.told fun _ _ => rfl
      rw [reports] at both
      simp only [List.flatMap_singleton] at both
      have total := both.of_eq (m := fun c : Counter =>
          c.ofEvent .zoneRejects (rejects ((z :: zs).flatMap fun z => (y z).handed)) +
            c.ofEvent .phantoms ((z :: zs).flatMap fun z => (y z).phantoms).length) fun c => by
        simp only [List.flatMap_cons, rejects_append, List.length_append, ← Counter.ofEvent_add]
        omega
      cases held : s.reportsPhantoms <;> simpa [held] using total

/-! ## A scan handed over (R25, R26) -/

/-- Only units, estimates and flags of records, counters and notices move. -/
structure Handing (s t : State) : Prop where
  frame : t = { s with
                zones := t.zones, axles := { s.axles with queue := t.axles.queue }, counters := t.counters
                notices := t.notices }
  queue : ∃ f : AxleRecord → AxleRecord,
    (∀ a, f a = { a with estimates := (f a).estimates, flags := (f a).flags }) ∧ t.axles.queue = s.axles.queue.map f

theorem Handing.of_axles {s t : State}
    (frame : t = { s with zones := t.zones, counters := t.counters, notices := t.notices }) : Handing s t := by
  refine ⟨by rw [frame], id, fun _ => rfl, ?_⟩
  rw [frame, List.map_id]

theorem Handing.refl (s : State) : Handing s s := .of_axles rfl

theorem Handing.trans {s t u : State} (h : Handing s t) (k : Handing t u) : Handing s u := by
  obtain ⟨frame, f, keeps, queue⟩ := h
  obtain ⟨frame', g, keeps', queue'⟩ := k
  refine ⟨?_, g ∘ f, fun a => ?_, ?_⟩
  · rw [frame', frame]
  · rw [Function.comp_apply, keeps', keeps]
  · rw [queue', queue, List.map_map]

theorem takeZoneScan_handing (r : ZoneScan) (z : Fin 4) (s : State) : Handing s (takeZoneScan r z s) := by
  have done := takeZoneScan_done (fun _ => r) z s
  refine ⟨?_, _, AxleRecord.takeEstimates_eq _ _, congrArg (fun t => t.axles.queue) done.frame⟩
  have frame := done.frame
  dsimp only at frame
  generalize takeZoneScan r z s = t at frame
  rw [frame]

theorem scanZone_eq {xs : List Sample} {n o : Sample} {rest : List Sample} {z : Fin 4} (t : Scan)
    (missing : Option (Scan × Scan)) (s : State) (samples : xs.drop (2 * z.val) = n :: o :: rest) :
    scanZone t missing xs s z = takeZoneScan (s.zones[z].scan (s.cal.zoneTables z) t missing n o) z s := by
  unfold scanZone takeZoneScan
  rw [samples]

theorem scanZone_handing (t : Scan) (missing : Option (Scan × Scan)) (xs : List Sample) (s : State) (z : Fin 4) :
    Handing s (scanZone t missing xs s z) := by
  match samples : xs.drop (2 * z.val) with
  | n :: o :: rest =>
    rw [scanZone_eq t missing s samples]
    exact takeZoneScan_handing _ z s
  | [] =>
    have same : scanZone t missing xs s z = s := by simp [scanZone, samples]
    rw [same]
    exact .refl s
  | [x] =>
    have same : scanZone t missing xs s z = s := by simp [scanZone, samples]
    rw [same]
    exact .refl s

theorem scanZones_handing (t : Scan) (missing : Option (Scan × Scan)) (xs : List Sample) (s : State) :
    Handing s (scanZones t missing xs s) := by
  unfold scanZones
  generalize s.cal.zonesInUse = zs
  induction zs generalizing s with
  | nil => exact .refl s
  | cons z zs ih => exact (scanZone_handing t missing xs s z).trans (ih _)

theorem sampleFaults_told (ch : Nat) (xs : List Sample) (s : State) :
    sampleFaults ch xs s = { s with notices := (sampleFaults ch xs s).notices } ∧
      Told s (sampleFaults ch xs s) (fun _ => 0)
        (((xs.zipIdx ch).filter fun x => x.1.status ≠ .ok).map Prod.snd) [] := by
  induction xs generalizing ch s with
  | nil => exact ⟨rfl, .refl s⟩
  | cons x xs ih =>
    unfold sampleFaults
    by_cases ok : x.status = .ok
    · have := ih (ch + 1) s
      simpa [ok, List.zipIdx_cons] using this
    · obtain ⟨frame, told⟩ := ih (ch + 1) (raiseCause .channelFault ch s)
      rw [if_neg ok]
      refine ⟨by rw [frame]; rfl, ?_⟩
      have both := (raiseCause_channelFault_told ch s).trans told fun _ _ => rfl
      simpa [ok, List.zipIdx_cons] using both

theorem sampleOccupancy_eq (s : State) :
    ∃ l, sampleOccupancy s =
      { s with counters := (sampleOccupancy s).counters, notices := s.notices.raises .statsFull l } :=
  ⟨_, updateCounters_eq _ s⟩

theorem handOver_handing (missing : Option (Scan × Scan)) (xs : List Sample) (s : State) :
    Handing s (handOver missing xs s) := by
  have sampled : Handing s (sampleOccupancy s) := .of_axles rfl
  unfold handOver
  dsimp only
  split
  · refine sampled.trans (Handing.trans (.of_axles ?_) (scanZones_handing _ _ _ _))
    exact (sampleFaults_told 0 xs (sampleOccupancy s)).1.trans (by rw [(sampleFaults_told 0 xs (sampleOccupancy s)).1])
  · exact sampled

/-- A record that only takes estimates is found as before. -/
theorem Handing.find {s t : State} (h : Handing s t) {j : Nat} {a : AxleRecord} (held : s.axles.find j = some a) :
    ∃ b, t.axles.find j = some b ∧ b = { a with estimates := b.estimates, flags := b.flags } := by
  obtain ⟨-, f, keeps, queue⟩ := h
  refine ⟨f a, ?_, keeps a⟩
  have ordinal : ∀ a, (f a).ordinal = a.ordinal := fun a => by rw [keeps]
  have same : ((fun a : AxleRecord => a.ordinal == j) ∘ f) = fun a => a.ordinal == j := by
    funext a
    simp [ordinal]
  unfold AxleTracker.find at held ⊢
  rw [queue, List.find?_map, same, held]
  rfl

/-! ## The scans of the zones in use -/

theorem Calibration.zonesInUse_of_geometry {c : Calibration} {g : GeometryRecord} (held : c.geometry = some g) (z : Fin 4) :
    z ∈ c.zonesInUse ↔ z.val < g.zones.length := by
  rw [mem_zonesInUse, zoneCount, held]
  rfl

/-- The scans of a list of zones read each unit as it stood. -/
theorem scanZone_foldl {xs : List Sample} {missing : Option (Scan × Scan)} {time : Scan} {y : Fin 4 → ZoneScan}
    {n o : Fin 4 → Sample} (zs : List (Fin 4)) (distinct : zs.Nodup) (s : State)
    (samples : ∀ z ∈ zs, ∃ rest, xs.drop (2 * z.val) = n z :: o z :: rest)
    (scans : ∀ z ∈ zs, y z = s.zones[z].scan (s.cal.zoneTables z) time missing (n z) (o z)) :
    zs.foldl (scanZone time missing xs) s = zs.foldl (fun s z => takeZoneScan (y z) z s) s := by
  induction zs generalizing s with
  | nil => rfl
  | cons z zs ih =>
    obtain ⟨fresh, distinct⟩ := List.nodup_cons.1 distinct
    obtain ⟨rest, first⟩ := samples z (by simp)
    have done := takeZoneScan_done y z s
    rw [List.foldl_cons, List.foldl_cons, scanZone_eq time missing s first, ← scans z (by simp)]
    refine ih distinct _ (fun x mem => samples x (List.mem_cons_of_mem _ mem)) fun x mem => ?_
    have unit : (takeZoneScan (y z) z s).zones[x] = s.zones[x] := by
      rw [done.zones, if_neg]
      simpa using fun e : x = z => fresh (e ▸ mem)
    have cal : (takeZoneScan (y z) z s).cal = s.cal := by rw [done.frame]
    rw [unit, cal]
    exact scans x (List.mem_cons_of_mem _ mem)

/-- A list of zones that leaves out only idle ones gives what all zones give. -/
theorem flatMap_zonesInUse {β : Type} {c : Calibration} {f : Fin 4 → List β}
    (idle : ∀ z : Fin 4, z ∉ c.zonesInUse → f z = []) : c.zonesInUse.flatMap f = (List.finRange 4).flatMap f := by
  have absent (z : Fin 4) (out : decide (z.val < c.zoneCount) = false) : f z = [] := by
    refine idle z ?_
    rw [Calibration.mem_zonesInUse]
    simpa using out
  have four : List.finRange 4 = [0, 1, 2, 3] := by decide
  rw [four]
  unfold Calibration.zonesInUse
  generalize ([0, 1, 2, 3] : List (Fin 4)) = l
  induction l with
  | nil => rfl
  | cons z l ih =>
    rw [List.filter_cons, List.flatMap_cons]
    cases within : decide (z.val < c.zoneCount) with
    | true => rw [if_pos rfl, List.flatMap_cons, ih]
    | false => rw [if_neg (by decide), ih, absent z within, List.nil_append]

theorem drop_eq_of_getElem? {xs : List Sample} {i : Nat} {n o : Sample} (first : xs[i]? = some n)
    (second : xs[i + 1]? = some o) : ∃ rest, xs.drop i = n :: o :: rest := by
  obtain ⟨low, eq⟩ := List.getElem?_eq_some_iff.1 first
  obtain ⟨low', eq'⟩ := List.getElem?_eq_some_iff.1 second
  exact ⟨xs.drop (i + 2), by rw [List.drop_eq_getElem_cons low, List.drop_eq_getElem_cons low', eq, eq']⟩

/-- R83: the scans of an accepted frame, with a Geometry Record. -/
theorem handOver_done {missing : Option (Scan × Scan)} {xs : List Sample} {s : State} {g : GeometryRecord}
    {n o : Fin 4 → Sample} {y : Fin 4 → ZoneScan} (held : s.cal.geometry = some g)
    (samples : ∀ z : Fin 4, z.val < g.zones.length → xs[2 * z.val]? = some (n z) ∧ xs[2 * z.val + 1]? = some (o z))
    (scans : ∀ z : Fin 4, y z =
      if z.val < g.zones.length then s.zones[z].scan (s.cal.zoneTables z) s.rx.time missing (n z) (o z)
      else { unit := s.zones[z], handed := [], phantoms := [], failing := [] }) :
    ScansDone y s.cal.zonesInUse (sampleFaults 0 xs (sampleOccupancy s)) (handOver missing xs s) := by
  have faults := (sampleFaults_told 0 xs (sampleOccupancy s)).1
  have whole : handOver missing xs s = scanZones s.rx.time missing xs (sampleFaults 0 xs (sampleOccupancy s)) := by
    simp [handOver, held]
  rw [whole]
  generalize sampleFaults 0 xs (sampleOccupancy s) = m at faults
  have cal : m.cal = s.cal := by rw [faults]; rfl
  have zones : m.zones = s.zones := by rw [faults]; rfl
  unfold scanZones
  rw [cal, scanZone_foldl s.cal.zonesInUse s.cal.zonesInUse_nodup m (y := y) (n := n) (o := o)]
  · exact takeZoneScans_done y _ m s.cal.zonesInUse_nodup
  · intro z mem
    have within := (Calibration.zonesInUse_of_geometry held z).1 mem
    exact drop_eq_of_getElem? (samples z within).1 (samples z within).2
  · intro z mem
    rw [scans, if_pos ((Calibration.zonesInUse_of_geometry held z).1 mem), zones, cal]

/-! ## Frames routed (R17) -/

/-- A frame of a sender is routed, and a boundary follows. -/
theorem exec_command {s : State} {f : Inbound} (started : s.part ≠ .starting) (valid : f.valid s.cal.geometry = true) :
    exec f.command s = .next (boundary (routeFrame f s)) := by
  have accepted := examine_written valid
  have received : receiveFrame f.kind f.payload f.check s = boundary (routeFrame f s) := by
    unfold receiveFrame
    rw [if_neg started, accepted]
  cases f <;> exact congrArg Host.Outcome.next received

theorem scanStep_add (last : Word16) {d : Nat} (short : d < 65536) : scanStep last (last + BitVec.ofNat 16 d) = d := by
  unfold scanStep
  bv_omega

theorem add_ofNat_sub_one (t : Scan) {d : Nat} (one : 1 ≤ d) :
    t + BitVec.ofNat 32 d - 1 = t + BitVec.ofNat 32 (d - 1) := by
  obtain ⟨k, rfl⟩ : ∃ k, d = k + 1 := ⟨d - 1, by omega⟩
  rw [Nat.add_sub_cancel, BitVec.ofNat_add]
  change t + (_ + (1 : BitVec 32)) - 1 = _
  ring

/-- R29: E16 of a scan and a fraction. -/
theorem t16OfScan_eq (t : Scan) (fraction : Nat) : t16OfScan t fraction = BitVec.ofNat 36 (16 * t.toNat + fraction) := by
  apply BitVec.eq_of_toNat_eq
  have := t.isLt
  simp only [t16OfScan, BitVec.toNat_add, BitVec.toNat_shiftLeft, BitVec.toNat_setWidth, BitVec.toNat_ofNat, Nat.shiftLeft_eq]
  omega

/-! ## Loss of sync (R24) -/

/-- The Zone Units after a loss of sync. -/
theorem loseSync_zone (s : State) (z : Fin 4) :
    (loseSync s).zones[z].windows = [] ∧
      ∀ r, (loseSync s).zones[z].channel r =
        (if z.val < s.cal.zoneCount then s.zones[z].loseSync (s.cal.zoneTables z) else s.zones[z].empty).channel r := by
  have unit : ∀ m : State, (m.zones[z] = if z.val < s.cal.zoneCount then s.zones[z].loseSync (s.cal.zoneTables z)
        else s.zones[z].empty) → m.zones[z].windows = [] := by
    intro m eq
    rw [eq]
    split
    · exact ZoneUnit.loseSync_windows _ _
    · rfl
  unfold loseSync
  generalize lost : mapZones (fun z u => if z.val < s.cal.zoneCount then u.loseSync (s.cal.zoneTables z) else u.empty)
    { s with rx := { s.rx with synced := false, silence := false }, west := PairUnit.reset, east := PairUnit.reset } = m
  have eq : m.zones[z] = if z.val < s.cal.zoneCount then s.zones[z].loseSync (s.cal.zoneTables z) else s.zones[z].empty := by
    rw [← lost, mapZones_get]
  unfold abortOnLoss
  split
  · have emptied : (abortWith .timeBase m).zones[z] = m.zones[z].empty :=
      mapZones_get (fun _ u => u.empty) m z
    exact ⟨congrArg ZoneUnit.windows emptied, fun r => (congrArg (fun u => ZoneUnit.channel u r) emptied).trans
      ((ZoneUnit.empty_channel _ r).trans (congrArg (fun u => ZoneUnit.channel u r) eq))⟩
  · exact ⟨unit m eq, fun r => congrArg (fun u => ZoneUnit.channel u r) eq⟩

end Sys2Proof.Machine

open Sys2Proof Sys2Proof.Machine

/-- Settles O13: the scans of the zones in use one behind the other, each reading its own unit, and the routing by d. -/
theorem scansAdvanceTimeByTheirNumber : Obligations.ScansAdvanceTimeByTheirNumber := by
  unfold Obligations.ScansAdvanceTimeByTheirNumber
  refine ⟨?_, ?_, ?_, ?_⟩
  · rintro missing xs s t rfl
    have handing := handOver_handing missing xs s
    refine ⟨handing.frame, fun j a held => handing.find held, fun absent => ?_⟩
    simp [handOver, absent]
  · intro missing xs s t g n o y handed reports held few length samples scans hands reporting result
    have done := handOver_done (missing := missing) held samples scans
    have faults := sampleFaults_told 0 xs (sampleOccupancy s)
    obtain ⟨l, occupancy⟩ := sampleOccupancy_eq s
    rw [← result] at done
    have idle (z : Fin 4) (out : z ∉ s.cal.zonesInUse) :
        y z = { unit := s.zones[z], handed := [], phantoms := [], failing := [] } := by
      rw [scans, if_neg]
      rwa [← Calibration.zonesInUse_of_geometry held z]
    have handedAll : (s.cal.zonesInUse.flatMap fun z => (y z).handed) = handed := by
      rw [hands]
      exact flatMap_zonesInUse fun z out => by rw [idle z out]
    have phantomsAll : (s.cal.zonesInUse.flatMap fun z => (y z).phantoms) = (List.finRange 4).flatMap fun z => (y z).phantoms :=
      flatMap_zonesInUse fun z out => by rw [idle z out]
    have wheelsAll : (s.cal.zonesInUse.flatMap fun z => (y z).phantoms.map fun r => (channelOf z r).val) =
        (List.finRange 4).flatMap fun z => (y z).phantoms.map fun r => (channelOf z r).val :=
      flatMap_zonesInUse fun z out => by rw [idle z out]; rfl
    have failingAll : (s.cal.zonesInUse.flatMap fun z => (y z).failing.map fun r => (channelOf z r).val) =
        (List.finRange 4).flatMap fun z => (y z).failing.map fun r => (channelOf z r).val :=
      flatMap_zonesInUse fun z out => by rw [idle z out]; rfl
    have entry (k : NoticeKind) (other : k ≠ .statsFull) :
        (sampleOccupancy s).notices.entry k = s.notices.entry k := by
      rw [occupancy]
      exact NoticeUnit.entry_raises_of_ne _ _ other l
    have level (k : NoticeKind) : (sampleOccupancy s).notices.level k = s.notices.level k := by
      rw [occupancy]
      unfold NoticeUnit.level
      rw [NoticeUnit.raises_levels]
    have told := faults.2.trans done.told fun _ _ => rfl
    have reportsPhantoms : (sampleFaults 0 xs (sampleOccupancy s)).reportsPhantoms = reports := by
      rw [faults.1, Bool.eq_iff_iff, reporting]
      show decide (s.train.state = .running ∧ (s.train.ctx.map TrainContext.disturbed).getD false = false) = true ↔ _
      cases s.train.ctx <;> simp
    rw [reportsPhantoms, handedAll, phantomsAll, wheelsAll, failingAll] at told
    refine ⟨fun z => ?_, ?_, ?_, ?_, ?_⟩
    · rw [done.zones]
      split
      · rfl
      next out => rw [idle z out, faults.1]; rfl
    · have queue := congrArg (fun t => t.axles.queue) done.frame
      rw [handedAll, faults.1] at queue
      exact queue
    · exact told.counts.of_eq fun c => by simp [rejects]
    · rw [told.faults, entry _ (by decide), level]
    · rw [told.wheels, entry _ (by decide), level, List.nil_append]
  · rintro lastOn h a b rfl
    refine ⟨fun entered generation open' undecided => ?_, fun closed => ?_⟩
    · have taken : a.takeEstimate lastOn h =
          { a with
            estimates := a.estimates.set h.channel (some { condition := h.condition, mass := h.mass })
            flags :=
              a.flags ||| axleFlagIf h.belowZero .underzero ||| axleFlagIf h.aboveRange .overrange |||
                axleFlagIf h.zeroSuspect .zeroSuspect } := if_pos ⟨entered, generation, open', undecided⟩
      rw [taken]
      refine ⟨rfl, fun ch => ?_, fun f => ?_⟩
      · by_cases same : ch = h.channel
        · subst same
          simp
        · simp [same, Vector.getElem_set_ne _ _ (Fin.val_ne_of_ne (Ne.symm same))]
      · simp only [hasAxleFlag_or, hasAxleFlag_axleFlagIf, or_assoc]
    · refine if_neg ?_
      rintro ⟨entered, generation, open', undecided⟩
      rcases closed with h | h | h | h
      · omega
      · exact h generation
      · exact nomatch open'.symm.trans h
      · exact h undecided
  · intro s number xs d started valid
    have routed := exec_command started valid
    refine ⟨fun unsynced => ?_, fun synced number_eq => ⟨?_, fun two most => ?_, fun least most => ?_, ?_, fun least most => ?_⟩⟩
    · rw [routed, routeFrame, takeScan, if_neg (by simp [unsynced])]
      rfl
    all_goals
      have step (short : d < 65536) : scanStep s.rx.lastScan number = d := number_eq ▸ scanStep_add _ short
    · rintro rfl
      rw [routed, routeFrame, takeScan, if_pos synced]
      dsimp only
      rw [step (by decide)]
      rfl
    · rw [routed, routeFrame, takeScan, if_pos synced]
      dsimp only
      rw [step (by omega), if_neg (by omega), if_neg (by omega), if_pos most, gapScan, add_ofNat_sub_one _ (by omega)]
      rfl
    · rw [routed, routeFrame, takeScan, if_pos synced]
      dsimp only
      rw [step (by omega), if_neg (by omega), if_neg (by omega), if_neg (by omega), if_pos most, jumpScan, synchronizeScan,
        Receiver.synchronize, raiseCause_rx, loseSync_rx]
      rfl
    · rintro rfl
      rw [routed, routeFrame, takeScan, if_pos synced]
      dsimp only
      rw [step (by decide)]
      rfl
    · rw [routed, routeFrame, takeScan, if_pos synced]
      dsimp only
      rw [step (by omega), if_neg (by omega), if_neg (by omega), if_neg (by omega), if_neg (by omega)]
      rfl

/-- Settles O14: the Zone Units one by one, then the abort of a train that runs or stands. -/
theorem lossOfSyncEmptiesTheWindows : Obligations.LossOfSyncEmptiesTheWindows := by
  unfold Obligations.LossOfSyncEmptiesTheWindows
  refine ⟨fun s => ⟨fun runs => ?_, fun stopped => ?_⟩, fun s => ⟨loseSync_rx s, ?_, ?_, fun z => ?_, fun train => ?_, ?_⟩⟩
  · exact congrArg _ (if_pos runs)
  · exact congrArg _ (if_neg (by simp [stopped]))
  · unfold loseSync abortOnLoss
    split <;> rfl
  · unfold loseSync abortOnLoss
    split <;> rfl
  · obtain ⟨windows, channel⟩ := loseSync_zone s z
    refine ⟨windows, fun r => ⟨fun g held within record => ?_, fun out => ?_⟩⟩
    · have used : z.val < s.cal.zoneCount := by simpa [Calibration.zoneCount, held] using within
      rw [channel, if_pos used, ZoneUnit.loseSync_channel, if_neg]
      · rfl
      · rwa [Calibration.zoneTables_record]
    · rw [channel]
      split
      next used =>
        rw [ZoneUnit.loseSync_channel, if_pos]
        rw [Calibration.zoneTables_record]
        refine out.resolve_left fun unused => ?_
        unfold Calibration.zoneCount at used
        cases held : s.cal.geometry with
        | none => simp [held] at used
        | some g =>
          have := unused g held
          simp only [held, Option.map_some, Option.getD_some] at used
          omega
      · exact ZoneUnit.empty_channel _ r
  · unfold loseSync abortOnLoss
    rw [if_pos (by exact train)]
    refine ⟨rfl, rfl, rfl, fun c held => ?_⟩
    have ctx : (abortWith .timeBase (mapZones (fun z u => if z.val < s.cal.zoneCount then u.loseSync (s.cal.zoneTables z)
        else u.empty) { s with rx := { s.rx with synced := false, silence := false }, west := PairUnit.reset, east := PairUnit.reset })).train.ctx.isSome = true := by
      show Option.isSome (Option.map _ (Option.map _ (Option.map _ s.train.ctx))) = true
      rw [held]
      rfl
    obtain ⟨c', some'⟩ := Option.isSome_iff_exists.1 ctx
    refine ⟨c', some', ?_⟩
    have map : Option.map _ (Option.map _ (Option.map _ s.train.ctx)) = some c' := some'
    rw [held] at map
    cases map
    exact ⟨rfl, rfl⟩
  · intro still standing
    have idle : abortOnLoss (mapZones (fun z u => if z.val < s.cal.zoneCount then u.loseSync (s.cal.zoneTables z) else u.empty)
        { s with rx := { s.rx with synced := false, silence := false }, west := PairUnit.reset, east := PairUnit.reset }) = _ :=
      if_neg (not_or.2 ⟨still, standing⟩)
    unfold loseSync
    rw [idle]
    rfl

/-- Settles O15: the placing of a wheel event by the scans since its own, and the place in the Request Buffer. -/
theorem wheelAndRequestFramesAreRouted : Obligations.WheelAndRequestFramesAreRouted := by
  unfold Obligations.WheelAndRequestFramesAreRouted
  refine ⟨fun s x number fraction back started low short eq => ?_, fun s r started short => ?_⟩
  · have valid : (Inbound.wheel x number fraction).valid s.cal.geometry = true := by simpa [Inbound.valid] using low
    have routed := exec_command started valid
    have behind : (s.rx.lastScan - number).toNat = back := by
      rw [eq]
      bv_omega
    have placed (t : Scan) (place : s.rx.placeEvent number = some t) :
        exec (Inbound.wheel x number fraction).command s =
          .next (boundary (takeEvent x (BitVec.ofNat 36 (16 * t.toNat + fraction)) s)) := by
      rw [routed, routeFrame, takeWheel, place]
      dsimp only
      rw [t16OfScan_eq]
    refine ⟨fun discarded => ?_, fun synced => ⟨fun near within => ?_, fun ahead => ?_⟩⟩
    · have none : s.rx.placeEvent number = none := by
        unfold Receiver.placeEvent
        dsimp only
        rw [behind]
        rcases discarded with unsynced | ⟨near, beyond⟩ | ⟨far, most⟩
        · rw [if_pos unsynced]
        · rw [if_pos near, if_neg (Nat.not_le_of_lt beyond), ite_self]
        · rw [if_neg (show ¬back ≤ 64 by omega), if_neg (show ¬65532 ≤ back by omega), ite_self]
      rw [routed, routeFrame, takeWheel, none]
    · refine placed _ ?_
      unfold Receiver.placeEvent
      dsimp only
      rw [behind, if_neg (by simp [synced]), if_pos near, if_pos within]
    · refine placed _ ?_
      unfold Receiver.placeEvent
      dsimp only
      rw [behind, if_neg (by simp [synced]), if_neg (by omega), if_pos ahead]
  · have valid : (Inbound.request r).valid s.cal.geometry = true := by simpa [Inbound.valid] using short
    have routed := exec_command started valid
    refine ⟨fun room => ?_, fun full => ?_⟩
    · rw [routed, routeFrame, takeRequest, if_pos (show s.requests.length < requestCapacity from room)]
    · rw [routed, routeFrame, takeRequest, if_neg (show ¬s.requests.length < requestCapacity from Nat.not_lt.2 full)]
end

section
/-! Requests: the row that serves the head request, what a refusal leaves, and the readings and settings (chapters 11 and
12). -/

namespace Sys2Proof.Machine

/-! ## The rows -/

theorem onHead_congr {mine : Byte → Bool} {f g : Request → State → State}
    (same : ∀ r : Request, mine r.code = true → f r = g r) : onHead mine f = onHead mine g := by
  funext s
  unfold onHead
  cases s.headRequest with
  | none => rfl
  | some p =>
    dsimp only
    split
    next own => rw [same p.1 own]
    · rfl

section
variable {s : State} {r : Request} {rest : List Request}

/-- An executable head request of the row's code is executed. -/
theorem State.CanExecute.onHead (can : s.CanExecute r rest) {mine : Byte → Bool} {f : Request → State → State}
    (own : mine r.code = true) : onHead mine f s = boundary (f r { s with requests := rest }) :=
  onHead_of_head can.2.1 can.1 ((responsePlace_iff s).2 can.2.2) own

/-- The execution of a request of a known code is that of its row. -/
theorem exec_requestRow_of_known {code : Byte} (known : code ∈ knownCodes) (w : Bool) (s : State) :
    exec (requestRow code w) s = .next (Machine.onHead (fun c => c == code) (perform w) s) := by
  simp only [knownCodes, List.mem_cons, List.not_mem_nil, or_false] at known
  rcases known with rfl | rfl | rfl | rfl | rfl | rfl | rfl | rfl | rfl | rfl | rfl | rfl | rfl | rfl | rfl | rfl | rfl |
    rfl | rfl
  all_goals
    refine congrArg Host.Outcome.next (congrFun (onHead_congr fun r own => ?_) s)
    have code := eq_of_beq own
    funext s
    unfold perform
    rw [code]
    rfl

theorem requestRow_of_unknown {code : Byte} (unknown : code ∉ knownCodes) (w : Bool) :
    requestRow code w = .unknownRequest := by
  simp only [knownCodes, List.mem_cons, List.not_mem_nil, or_false, not_or] at unknown
  unfold requestRow
  simp only [if_neg, unknown, not_false_eq_true]

theorem perform_of_unknown (unknown : r.code ∉ knownCodes) (w : Bool) : perform w r = unknownRequest r := by
  simp only [knownCodes, List.mem_cons, List.not_mem_nil, or_false, not_or] at unknown
  funext s
  unfold perform
  simp only [if_neg, unknown, not_false_eq_true]

theorem exec_requestRow_of_unknown {code : Byte} (unknown : code ∉ knownCodes) (w : Bool) (s : State) :
    exec (requestRow code w) s = .next (Machine.onHead (fun c => !knownCodes.contains c) (perform w) s) := by
  rw [requestRow_of_unknown unknown]
  refine congrArg Host.Outcome.next (congrFun (onHead_congr fun r own => ?_) s)
  exact (perform_of_unknown (by simpa using own) w).symm

/-- The row of the head request's code executes it (R167, R181). -/
theorem State.CanExecute.exec_requestRow (can : s.CanExecute r rest) (w : Bool) :
    exec (requestRow r.code w) s = .next (boundary (perform w r { s with requests := rest })) := by
  by_cases known : r.code ∈ knownCodes
  · exact (exec_requestRow_of_known known w s).trans (congrArg _ (can.onHead (beq_self_eq_true r.code)))
  · exact (exec_requestRow_of_unknown known w s).trans (congrArg _ (can.onHead (by simpa using known)))

/-- A row does nothing without an executable head request of its own. -/
theorem exec_requestRow_of_no_head (code : Byte) (w : Bool) (s : State)
    (idle : ∀ r rest, s.CanExecute r rest → requestRow r.code w ≠ requestRow code w) :
    exec (requestRow code w) s = .next s := by
  have rests {mine : Byte → Bool} (other : ∀ c, mine c = true → requestRow c w = requestRow code w)
      (f : Request → State → State) : Machine.onHead mine f s = s := by
    rcases onHead_cases mine f s with same | ⟨r, s', head, own, -⟩
    · exact same
    · obtain ⟨rest, can, -⟩ := headRequest_iff.1 head
      exact absurd (other _ own) (idle r rest can)
  by_cases known : code ∈ knownCodes
  · rw [exec_requestRow_of_known known, rests fun c own => by rw [eq_of_beq own]]
  · rw [exec_requestRow_of_unknown known,
      rests fun c own => by rw [requestRow_of_unknown (by simpa using own), requestRow_of_unknown known]]

/-! ## Answers -/

theorem withoutPayload_of_nil {f : State → State} (empty : r.payload = []) : withoutPayload r f s = f s := by
  simp [withoutPayload, empty]

theorem withoutPayload_of_ne {f : State → State} (carries : r.payload ≠ []) :
    withoutPayload r f s = answer r .malformed [] s := by
  simp [withoutPayload, carries]

/-- R167: a payload where none is taken. -/
theorem perform_of_payload {w : Bool}
    (listed : r.code ∈
      [codeReadStatus, codeReadNotices, codeClearNotices, codeClearConsist, codeReadCounters, codeResetCounters])
    (carries : r.payload ≠ []) : perform w r s = answer r .malformed [] s := by
  simp only [List.mem_cons, List.not_mem_nil, or_false] at listed
  obtain ⟨f, eq⟩ : ∃ f, perform w r s = withoutPayload r f s := by
    rcases listed with code | code | code | code | code | code
    all_goals
      simp +decide only [perform, code, if_true, if_false]
      exact ⟨_, rfl⟩
  rw [eq, withoutPayload_of_ne carries]

theorem busyTrain_iff (s : State) :
    s.busyTrain = true ↔ s.train.state = .running ∨ s.train.state = .standing ∨ s.train.state = .ending := by
  unfold State.busyTrain
  cases s.train.state <;> simp

theorem busyTrain_eq_false_iff (s : State) :
    s.busyTrain = false ↔ s.train.state = .idle ∨ s.train.state = .ignoring := by
  unfold State.busyTrain
  cases s.train.state <;> simp

end

/-! ## The freed place (R160) -/

section
variable {u : State} {c : Choice}

/-- A boundary behind an act on the freed place finds the transmitter busy. -/
theorem boundary_handFreedPlace (w : Bool) (ready : u.canStart = true) (first : u.arbiter = some c) :
    boundary (handFreedPlace w c (boundary u)) = handFreedPlace w c (boundary u) := by
  rw [boundary_of_canStart ready first]
  refine boundary_of_not_canStart (canStart_of_sending ?_)
  rw [(handFreedPlace_handed w c (startChosen c u)).sending]
  exact startChosen_sending c u

theorem handingBoundary_of_arbiter (w : Bool) (ready : u.canStart = true) (first : u.arbiter = some c) :
    handingBoundary w u = handFreedPlace w c (boundary u) := by
  rw [boundary_of_canStart ready first]
  simp only [handingBoundary, State.chosen, ready, if_true, first]

theorem handingBoundary_of_arbiter_none (w : Bool) (ready : u.canStart = true) (rests : u.arbiter = none) :
    handingBoundary w u = boundary u := by
  rw [boundary_of_arbiter_none rests]
  simp only [handingBoundary, State.chosen, ready, if_true, rests]

/-- A place freed in the Response Queue: the head request's own row. -/
theorem exec_requestRow_of_freed {q : Request} {rest : List Request} (w : Bool) (ready : u.canStart = true)
    {r : Response} (first : u.arbiter = some (.response r)) (requests : u.requests = q :: rest) :
    .next (handFreedPlace w (.response r) (boundary u)) = exec (requestRow q.code w) (boundary u) := by
  have settled := boundary_handFreedPlace w ready first
  unfold handFreedPlace at settled ⊢
  dsimp only at settled ⊢
  cases head : (boundary u).headRequest with
  | none =>
    refine (exec_requestRow_of_no_head q.code w (boundary u) fun r' rest' can => ?_).symm
    exact nomatch head.symm.trans (headRequest_iff.2 ⟨rest', can, rfl⟩)
  | some p =>
    obtain ⟨rest', can, eq⟩ := headRequest_iff.1 head
    have same : p.1 = q := by
      have := can.2.1
      rw [boundary_requests, requests] at this
      exact (List.cons.inj this).1.symm
    rw [head] at settled
    rw [← same, can.exec_requestRow w, ← eq]
    exact congrArg _ settled.symm

/-- A place freed in the Record Queue while vehicles are held: judged for a release. -/
theorem exec_vehicleRelease_of_freed (w : Bool) (ready : u.canStart = true) {q : QueueRecord}
    (first : u.arbiter = some (.record q)) (held : u.asm.list ≠ []) :
    .next (handFreedPlace w (.record q) (boundary u)) = exec .vehicleRelease (boundary u) := by
  have settled := boundary_handFreedPlace w ready first
  show _ = execVehicleRelease (boundary u)
  unfold execVehicleRelease
  unfold handFreedPlace at settled ⊢
  dsimp only at settled ⊢
  cases releasable : (boundary u).releasable with
  | none =>
    have notDue : (boundary u).summaryDue = none := by
      unfold State.summaryDue
      exact if_neg fun due => held (by simpa using due.2.1)
    rw [notDue]
  | some p =>
    rw [releasable] at settled
    exact congrArg _ settled.symm

/-- A place freed in the Record Queue with no vehicle left: judged for the summary. -/
theorem exec_summaryPlaced_of_freed (w : Bool) (ready : u.canStart = true) {q : QueueRecord}
    (first : u.arbiter = some (.record q)) (empty : u.asm.list = []) :
    .next (handFreedPlace w (.record q) (boundary u)) = exec .summaryPlaced (boundary u) := by
  have settled := boundary_handFreedPlace w ready first
  have none : (boundary u).releasable = none := by simp [State.releasable, empty]
  show _ = execSummaryPlaced (boundary u)
  unfold execSummaryPlaced
  unfold handFreedPlace at settled ⊢
  dsimp only at settled ⊢
  rw [none] at settled ⊢
  cases due : (boundary u).summaryDue with
  | none => rfl
  | some c =>
    rw [due] at settled
    exact congrArg _ settled.symm

end

end Sys2Proof.Machine

open Sys2Proof Sys2Proof.Machine

/-- Settles O38: a row finds its head request or leaves the part as it is; the codes without payload answer one MALFORMED. -/
theorem requestRowsServeTheHeadRequest : Obligations.RequestRowsServeTheHeadRequest := by
  refine ⟨fun s code w blocked => ?_, fun s r rest w can => ⟨fun unknown => ?_, fun carries listed => ?_, fun empty code => ⟨fun busy => ?_, fun free => ?_⟩⟩⟩
  · refine exec_requestRow_of_no_head code w s fun r rest can own => ?_
    obtain ⟨running, requests, place⟩ := can
    rcases blocked with none | starting | full | ⟨r', rest', requests', other⟩
    · rw [none] at requests
      exact nomatch requests
    · exact running starting
    · omega
    · rw [requests] at requests'
      obtain ⟨rfl, rfl⟩ := List.cons.inj requests'
      exact other own
  · have := can.exec_requestRow w
    rwa [requestRow_of_unknown unknown, perform_of_unknown unknown] at this
  · exact (can.exec_requestRow w).trans (congrArg (fun t => Host.Outcome.next (boundary t)) (perform_of_payload listed carries))
  · refine congrArg Host.Outcome.next ((can.onHead (by simp [code])).trans (congrArg boundary ?_))
    rw [clearConsist, withoutPayload_of_nil empty]
    exact if_pos ((busyTrain_iff s).2 busy)
  · refine congrArg Host.Outcome.next ((can.onHead (by simp [code])).trans (congrArg boundary ?_))
    rw [clearConsist, withoutPayload_of_nil empty]
    exact if_neg (Bool.eq_false_iff.1 ((busyTrain_eq_false_iff s).2 free))

/-- Settles O37: the boundary's choice, then the act of the row that its freed place serves; no second choice follows. -/
theorem frameEndsHandOnTheFreedPlace : Obligations.FrameEndsHandOnTheFreedPlace := by
  unfold Obligations.FrameEndsHandOnTheFreedPlace
  intro s u w o hu
  refine ⟨rfl, fun held busy => ⟨?_, ?_⟩, fun idle => ?_, fun released => ?_, fun occasion => ?_⟩
  · have stays : handingBoundary w (endFrame s) = endFrame s := by
      simp [handingBoundary, State.chosen, State.canStart, endFrame, held]
    exact congrArg Host.Outcome.next ((if_pos busy).trans stays)
  · have stays : handingBoundary w { s with hold := false } = { s with hold := false } := by
      simp [handingBoundary, State.chosen, canStart_of_sending (s := { s with hold := false }) busy]
    exact congrArg Host.Outcome.next ((if_pos held).trans stays)
  · exact congrArg Host.Outcome.next (if_neg (by simp [idle]))
  · exact congrArg Host.Outcome.next (if_neg (by simp [released]))
  · have ready : u.canStart = true := by rw [hu]; rfl
    have outcome : o = .next (handingBoundary w u) := by
      rcases occasion with ⟨rfl, released, busy⟩ | ⟨rfl, held, idle⟩
      · have same : endFrame s = u := by rw [hu, ← released]; rfl
        rw [← same]
        exact congrArg Host.Outcome.next (if_pos busy)
      · have same : { s with hold := false } = u := by rw [hu, ← idle]
        rw [← same]
        exact congrArg Host.Outcome.next (if_pos held)
    have freed {c : Choice} (first : u.arbiter = some c) : o = .next (handFreedPlace w c (boundary u)) := by
      rw [outcome, handingBoundary_of_arbiter w ready first]
    have requests : u.requests = s.requests := by rw [hu]
    have list : u.asm.list = s.asm.list := by rw [hu]
    have responses : u.link.responses = s.link.responses := by rw [hu]
    have records : u.link.records = s.link.records := by rw [hu]
    have notices : u.notices = s.notices := by rw [hu]
    rw [← requests, ← list, ← responses, ← records, ← notices]
    refine ⟨fun r rest head => ?_, fun q rest none low head => ?_, fun none other => ?_⟩
    · have first : u.arbiter = some (.response r) := by simp [State.arbiter, head]
      refine ⟨fun empty => ?_, fun q rest' front => ?_⟩
      · rw [freed first]
        simp [handFreedPlace, State.headRequest, empty]
      · rw [freed first, exec_requestRow_of_freed w ready first front]
    · have first : u.arbiter = some (.record q) := by simp [State.arbiter, none, low, head]
      exact ⟨fun left => by rw [freed first, exec_vehicleRelease_of_freed w ready first left],
        fun empty => by rw [freed first, exec_summaryPlaced_of_freed w ready first empty]⟩
    · cases chosen : u.arbiter with
      | none => rw [outcome, handingBoundary_of_arbiter_none w ready chosen]
      | some c =>
        rw [freed chosen]
        simp only [State.arbiter, none] at chosen
        split at chosen
        · cases chosen
          rfl
        next low =>
          rw [other.resolve_left (absurd low)] at chosen
          dsimp only at chosen
          split at chosen
          · cases chosen
            rfl
          split at chosen
          · cases chosen
            rfl
          · cases chosen

end

section
/-! Readings and settings: READ STATUS, READ TABLE, the notice requests, the protection, RESTART and the commit (chapters 8, 11
and 12). -/

namespace Sys2Proof.Machine

/-! ## Fields of a layout -/

/-- The bytes of fields given by length and value, in their order (R180 to R182). -/
def layoutBytes (l : List (Nat × Nat)) : List Byte := l.flatMap fun x => natBytes x.1 x.2

theorem layoutBytes_cons (n v : Nat) (l : List (Nat × Nat)) :
    layoutBytes ((n, v) :: l) = natBytes n v ++ layoutBytes l := rfl

theorem layoutBytes_nil : layoutBytes [] = [] := rfl

theorem layoutBytes_append (l m : List (Nat × Nat)) : layoutBytes (l ++ m) = layoutBytes l ++ layoutBytes m :=
  List.flatMap_append

theorem layoutBytes_length (l : List (Nat × Nat)) : (layoutBytes l).length = (l.map Prod.fst).sum := by
  induction l with
  | nil => rfl
  | cons x l ih => rw [layoutBytes_cons, List.length_append, natBytes_length, ih, List.map_cons, List.sum_cons]

/-- The field at index i of a layout, read at its place. -/
theorem natAt_layoutBytes {l : List (Nat × Nat)} (i : Nat) {off n v : Nat} (field : l[i]? = some (n, v))
    (place : ((l.map Prod.fst).take i).sum = off) (rest : List Byte) :
    natAt (layoutBytes l ++ rest) off n = v % 256 ^ n := by
  obtain ⟨below, eq⟩ := List.getElem?_eq_some_iff.1 field
  have split : layoutBytes l ++ rest = layoutBytes (l.take i) ++ (natBytes n v ++ (layoutBytes (l.drop (i + 1)) ++ rest)) := by
    conv_lhs => rw [← List.take_append_drop i l, layoutBytes_append, List.drop_eq_getElem_cons below, eq, layoutBytes_cons]
    simp only [List.append_assoc]
  rw [split, natAt_behind _ _ off n (by rw [layoutBytes_length, List.map_take, place]), natAt_front]

theorem natAt_layoutBytes_of_lt {l : List (Nat × Nat)} (i : Nat) {off n v : Nat} (field : l[i]? = some (n, v))
    (place : ((l.map Prod.fst).take i).sum = off) (fits : v < 256 ^ n) (rest : List Byte) :
    natAt (layoutBytes l ++ rest) off n = v := by
  rw [natAt_layoutBytes i field place, Nat.mod_eq_of_lt fits]

theorem boolByte_eq (b : Bool) : [boolByte b] = natBytes 1 b.toNat := by cases b <;> rfl

/-! ## READ STATUS -/

/-- The fields of the READ STATUS answer (R182). -/
def statusLayout (s : State) : List (Nat × Nat) :=
  [(1, s.part.code), (1, s.train.state.code), (2, s.statusTrainNumber.toNat),
    (1, s.calEn.toNat + 2 * s.cal.calPending.toNat + 4 * s.cal.committing.isSome.toNat), (2, s.cal.counter),
    (1, s.rx.synced.toNat), (1, s.pace.lock.code), (2, s.axles.firstOn), (2, s.axles.lastOn), (2, s.axles.highest),
    (2, s.axles.lowestHeld), (1, s.axles.queue.length), (1, s.windowCount 0), (1, s.windowCount 1),
    (1, s.windowCount 2), (1, s.windowCount 3), (1, s.asm.list.length), (2, s.consist.length),
    (1, waitingCount s.asm.list), (1, s.link.records.length), (1, s.link.details.length),
    (1, s.link.responses.length + 128 * s.cal.committing.isSome.toNat), (1, s.requests.length)]

theorem statusBytes_eq (s : State) : statusBytes s = layoutBytes (statusLayout s) ++ [] := by
  have bits : [bitsByte [s.calEn, s.cal.calPending, s.cal.committing.isSome]] =
      natBytes 1 (s.calEn.toNat + 2 * s.cal.calPending.toNat + 4 * s.cal.committing.isSome.toNat) := by
    generalize s.cal.committing.isSome = c
    generalize s.cal.calPending = b
    generalize s.calEn = a
    cases a <;> cases b <;> cases c <;> rfl
  unfold statusBytes statusLayout
  rw [bits, boolByte_eq s.rx.synced]
  simp only [layoutBytes_cons, layoutBytes_nil, List.append_assoc, List.append_nil]

/-- The lengths of the fields (R182). -/
def statusWidths : List Nat := [1, 1, 2, 1, 2, 1, 1, 2, 2, 2, 2, 1, 1, 1, 1, 1, 1, 2, 1, 1, 1, 1, 1]

theorem statusLayout_widths (s : State) : (statusLayout s).map Prod.fst = statusWidths := rfl

theorem statusBytes_length (s : State) : (statusBytes s).length = 30 := by
  rw [statusBytes_eq, List.append_nil, layoutBytes_length, statusLayout_widths]
  decide

theorem natAt_statusBytes (s : State) (i : Nat) {off n v : Nat} (field : (statusLayout s)[i]? = some (n, v))
    (place : (statusWidths.take i).sum = off) : natAt (statusBytes s) off n = v % 256 ^ n := by
  rw [statusBytes_eq, natAt_layoutBytes i field (by rw [statusLayout_widths, place])]

theorem natAt_statusBytes_of_lt (s : State) (i : Nat) {off n v : Nat} (field : (statusLayout s)[i]? = some (n, v))
    (place : (statusWidths.take i).sum = off) (fits : v < 256 ^ n) : natAt (statusBytes s) off n = v := by
  rw [natAt_statusBytes s i field place, Nat.mod_eq_of_lt fits]

/-! ## READ TABLE -/

section
variable {s : State} {r : Request} {rest : List Request}

theorem readTable_eq {table index : Nat} (payload : r.payload = natBytes 1 table ++ natBytes 2 index)
    (low : table < 256) (below : index < 65536) :
    readTable r s =
      match s.tableFields table index with
      | none => answer r .badIndex [] s
      | some none => answer r .ok (r.payload ++ [0]) s
      | some (some bytes) => answer r .ok (r.payload ++ 1 :: bytes) s := by
  have first : natAt r.payload 0 1 = table := by rw [payload, natAt_front_of_lt _ low]
  have second : natAt r.payload 1 2 = index := by
    rw [payload, natAt_behind (natBytes 1 table) _ 1 2 rfl, ← List.append_nil (natBytes 2 index),
      natAt_front_of_lt _ below]
  unfold readTable
  (rw [if_neg (by simp [payload]), first, second]) <;> rfl

/-- READ TABLE of a table and index that hold an entry or can hold one (R169). -/
theorem exec_readTable_of_some (can : s.CanExecute r rest) (code : r.code = codeReadTable) {table index : Nat}
    (payload : r.payload = natBytes 1 table ++ natBytes 2 index) (low : table < 256) (below : index < 65536)
    {entry : Option (List Byte)} (named : s.tableFields table index = some entry) :
    exec .readTable s = s.tableRead r rest entry := by
  refine congrArg Host.Outcome.next ((can.onHead (by simp [code])).trans (congrArg boundary ?_))
  refine (readTable_eq payload low below).trans ?_
  simp only [show State.tableFields { s with requests := rest } table index = some entry from named]
  cases entry <;> rfl

theorem exec_readTable_of_none (can : s.CanExecute r rest) (code : r.code = codeReadTable) {table index : Nat}
    (payload : r.payload = natBytes 1 table ++ natBytes 2 index) (low : table < 256) (below : index < 65536)
    (unnamed : s.tableFields table index = none) :
    exec .readTable s = .next (boundary (s.answered r rest .badIndex [])) := by
  refine congrArg Host.Outcome.next ((can.onHead (by simp [code])).trans (congrArg boundary ?_))
  refine (readTable_eq payload low below).trans ?_
  simp only [show State.tableFields { s with requests := rest } table index = none from unnamed]
  rfl

/-- The tables of R169 and their ranges. -/
theorem tableFields_eq_none {table index : Nat}
    (beyond : table = 0 ∨ 9 ≤ table ∨ (table = 2 ∧ 8 ≤ index) ∨ (table = 6 ∧ 32 ≤ index) ∨
      (table = 7 ∧ (index = 0 ∨ 512 < index)) ∨ (table = 8 ∧ (index = 0 ∨ 16 < index))) :
    s.tableFields table index = none := by
  unfold State.tableFields
  split
  all_goals first | rfl | omega | skip
  · exact dif_neg (by omega)
  · exact dif_neg (by omega)
  · exact if_neg (by simp only [consistCapacity]; omega)
  · exact dif_neg (by omega)

end

end Sys2Proof.Machine

open Sys2Proof Sys2Proof.Machine

/-- Settles O39: the answers' fields at their places, and the tables one by one. -/
theorem statusAndTablesAreRead : Obligations.StatusAndTablesAreRead := by
  refine ⟨fun s r rest b can code empty hb => ?_, ?_⟩
  · rw [hb]
    have field := natAt_statusBytes { s with requests := rest }
    have fits := natAt_statusBytes_of_lt { s with requests := rest }
    refine ⟨?_, statusBytes_length _, fits 0 rfl (by decide) ?_, fits 1 rfl (by decide) ?_, fits 2 rfl (by decide) ?_,
      fits 3 rfl (by decide) ?_, field 4 rfl (by decide), fits 5 rfl (by decide) ?_, fits 6 rfl (by decide) ?_,
      field 7 rfl (by decide), field 8 rfl (by decide), field 9 rfl (by decide), field 10 rfl (by decide),
      field 11 rfl (by decide), fun z => ?_, field 16 rfl (by decide), field 17 rfl (by decide),
      field 18 rfl (by decide), field 19 rfl (by decide), field 20 rfl (by decide), field 21 rfl (by decide),
      field 22 rfl (by decide)⟩
    · exact congrArg Host.Outcome.next
        ((can.onHead (by simp [code])).trans (congrArg boundary (withoutPayload_of_nil empty)))
    · cases s.part <;> decide
    · cases s.train.state <;> decide
    · exact s.statusTrainNumber.isLt
    · cases s.calEn <;> cases s.cal.calPending <;> cases s.cal.committing.isSome <;> decide
    · cases s.rx.synced <;> decide
    · cases s.pace.lock <;> decide
    · match z with
      | 0 => exact field 12 rfl (by decide)
      | 1 => exact field 13 rfl (by decide)
      | 2 => exact field 14 rfl (by decide)
      | 3 => exact field 15 rfl (by decide)
  · intro s r rest table index can code
    refine ⟨fun length => ?_, fun payload low below => ?_⟩
    · exact congrArg Host.Outcome.next ((can.onHead (by simp [code])).trans (congrArg boundary (if_pos length)))
    · have reads {entry : Option (List Byte)} := exec_readTable_of_some (entry := entry) can code payload low below
      refine ⟨?_, ?_, ?_, ?_, ?_, ?_, ?_, ?_, fun beyond =>
        exec_readTable_of_none can code payload low below (tableFields_eq_none beyond)⟩
      · rintro rfl
        exact reads rfl
      · rintro ch rfl rfl
        exact reads (dif_pos ch.isLt)
      · rintro rfl
        exact reads rfl
      · rintro rfl
        exact reads rfl
      · rintro rfl
        exact reads rfl
      · rintro i rfl rfl
        exact reads (dif_pos i.isLt)
      · rintro rfl least most
        refine reads ((if_pos ⟨least, most⟩).trans ?_)
        obtain ⟨n, rfl⟩ : ∃ n, index = n + 1 := ⟨index - 1, by omega⟩
        rfl
      · rintro k rfl rfl
        exact reads (dif_pos ⟨by omega, by omega⟩)

end

section
/-! The notice requests, the protection and CAL_EN, RESTART, the summary and the commit (chapters 4, 8, 11 and 12). -/

namespace Sys2Proof.Machine

/-! ## Entries of one length -/

theorem natAt_drop (p : List Byte) (a off n : Nat) : natAt p (a + off) n = natAt (p.drop a) off n := by
  simp only [natAt, List.drop_drop]

/-- The i-th of entries of one length, read at its place. -/
theorem drop_flatMap {α : Type} {f : α → List Byte} {n : Nat} (length : ∀ a, (f a).length = n) {l : List α} {i : Nat}
    {a : α} (entry : l[i]? = some a) : ∃ rest, (l.flatMap f).drop (n * i) = f a ++ rest := by
  obtain ⟨below, eq⟩ := List.getElem?_eq_some_iff.1 entry
  refine ⟨(l.drop (i + 1)).flatMap f, ?_⟩
  have := drop_flatMap_append length [] l below.le
  rw [List.append_nil, List.append_nil, List.drop_eq_getElem_cons below, eq] at this
  exact this

/-! ## Notices -/

theorem allKinds_index (k : NoticeKind) : allKinds[k.index.val]? = some k := by cases k <;> rfl

theorem noticeStatusBytes_eq (u : NoticeUnit) (k : NoticeKind) :
    noticeStatusBytes u k =
      layoutBytes
        [(1, u.level k), (1, (u.entry k).pending.toNat), (1, (u.entry k).count), (2, (u.entry k).lastArg.toNat)] := by
  unfold noticeStatusBytes
  rw [boolByte_eq]
  simp only [layoutBytes_cons, layoutBytes_nil, List.append_assoc, List.append_nil]

theorem noticeStatusBytes_length (u : NoticeUnit) (k : NoticeKind) : (noticeStatusBytes u k).length = 5 := by
  rw [noticeStatusBytes_eq, layoutBytes_length]
  rfl

/-- CLEAR NOTICES clears the marks and counts alone (R171). -/
theorem NoticeUnit.entry_cleared (u : NoticeUnit) (k : NoticeKind) :
    u.cleared.entry k = { u.entry k with pending := false, count := 0 } := by
  simp [NoticeUnit.cleared, NoticeUnit.entry]

theorem NoticeUnit.level_writeLevel (u : NoticeUnit) (k : NoticeKind) (level : Nat) :
    (u.writeLevel k.index level).level k = level := by
  simp [NoticeUnit.writeLevel, NoticeUnit.level]

theorem NoticeUnit.entry_writeLevel (u : NoticeUnit) (k : NoticeKind) (level : Nat) :
    (u.writeLevel k.index level).entry k =
      { u.entry k with pending := (u.entry k).pending && decide (level ≠ 0) } := by
  by_cases silent : level = 0 <;> simp [NoticeUnit.writeLevel, NoticeUnit.entry, silent]

theorem NoticeUnit.writeLevel_other (u : NoticeUnit) {k m : NoticeKind} (other : m ≠ k) (level : Nat) :
    (u.writeLevel k.index level).level m = u.level m ∧ (u.writeLevel k.index level).entry m = u.entry m := by
  have apart : k.index.val ≠ m.index.val := fun e => other (NoticeKind.index_inj (Fin.ext e)).symm
  simp [NoticeUnit.writeLevel, NoticeUnit.level, NoticeUnit.entry, Vector.getElem_set_ne, apart]

section
variable {s : State} {r : Request} {rest : List Request}

/-- A WRITE LEVEL of two bytes (R163). -/
theorem writeLevel_eq {kind level : Nat} (payload : r.payload = natBytes 1 kind ++ natBytes 1 level)
    (low : kind < 256) (below : level < 256) :
    writeLevel r s =
      if h : 1 ≤ kind ∧ kind ≤ 16 then
        if 7 < level then answerBadValue r 1 s
        else answer r .ok [] { s with notices := s.notices.writeLevel ⟨kind - 1, by omega⟩ level }
      else answer r .badIndex [] s := by
  have first : natAt r.payload 0 1 = kind := by rw [payload, natAt_front_of_lt _ low]
  have second : natAt r.payload 1 1 = level := by
    rw [payload, natAt_behind (natBytes 1 kind) _ 1 1 rfl, ← List.append_nil (natBytes 1 level),
      natAt_front_of_lt _ below]
  unfold writeLevel
  simp only [first, second]
  exact if_neg (by simp [payload])

/-! ## The protection -/

/-- R118: what a protected request of each code does. -/
theorem perform_of_guarded {w : Bool}
    (listed : r.code ∈ [codeWriteGeometry, codeWriteChannel, codeWriteSpeedCurve, codeWriteLimits, codeCommitCalibration]) :
    ∃ f, perform w r s = guarded r f s := by
  simp only [List.mem_cons, List.not_mem_nil, or_false] at listed
  rcases listed with code | code | code | code | code
  all_goals
    simp +decide only [perform, code, if_true, if_false]
    exact ⟨_, rfl⟩

theorem guarded_of_protection {f : State → State} {st : Status} (refuses : s.protection = some st) :
    guarded r f s = answer r st [] s := by simp only [guarded, refuses]

theorem guarded_of_admitted {f : State → State} (admitted : s.protection = none) : guarded r f s = f s := by
  simp only [guarded, admitted]

theorem protection_of_locked (locked : s.calEn = false) : s.protection = some .locked := by
  simp [State.protection, locked]

theorem protection_of_busyTrain (enabled : s.calEn = true) (busy : s.busyTrain = true) :
    s.protection = some .busyTrain := by simp [State.protection, enabled, busy]

theorem protection_of_committing (enabled : s.calEn = true) (free : s.busyTrain = false)
    (committing : s.cal.committing ≠ none) : s.protection = some .busyCommit := by
  simp [State.protection, enabled, free, Option.isSome_iff_ne_none, committing]

end

/-! ## RESTART -/

theorem zeroCounters_get (s : State) (i : Fin 4) : (zeroCounters s).counters[i] = s.counters[i].zeroed :=
  match i with
  | 0 | 1 | 2 | 3 => rfl

end Sys2Proof.Machine

open Sys2Proof Sys2Proof.Machine

/-- Settles O40: the sixteen entries of five bytes, and the register after each of the two writes. -/
theorem noticesAreReadClearedAndLevelled : Obligations.NoticesAreReadClearedAndLevelled := by
  intro s r rest can
  refine ⟨fun code empty => ⟨allKinds.flatMap (noticeStatusBytes s.notices), ?_, ?_, fun k => ?_⟩,
    fun code empty => ⟨s.notices.cleared, ?_, rfl, s.notices.entry_cleared⟩, fun code => ⟨fun length => ?_,
      fun kind level payload low below => ⟨fun outside => ?_, fun least most high => ?_, ?_⟩⟩⟩
  · exact congrArg Host.Outcome.next
      ((can.onHead (by simp [code])).trans (congrArg boundary (withoutPayload_of_nil empty)))
  · exact length_flatMap_of_length (noticeStatusBytes_length s.notices) allKinds
  · obtain ⟨rest, entry⟩ := drop_flatMap (noticeStatusBytes_length s.notices) (allKinds_index k)
    rw [noticeStatusBytes_eq] at entry
    have field (i : Nat) {off n v : Nat}
        (at' : [(1, s.notices.level k), (1, (s.notices.entry k).pending.toNat), (1, (s.notices.entry k).count),
          (2, (s.notices.entry k).lastArg.toNat)][i]? = some (n, v)) (place : ([1, 1, 1, 2].take i).sum = off) :
        natAt (allKinds.flatMap (noticeStatusBytes s.notices)) (5 * k.index + off) n = v % 256 ^ n := by
      rw [natAt_drop, entry, natAt_layoutBytes i at' place]
    refine ⟨field 0 rfl rfl, (field 1 rfl rfl).trans (Nat.mod_eq_of_lt ?_), field 2 rfl rfl,
      (field 3 rfl rfl).trans (Nat.mod_eq_of_lt (s.notices.entry k).lastArg.isLt)⟩
    cases (s.notices.entry k).pending <;> decide
  · exact congrArg Host.Outcome.next
      ((can.onHead (by simp [code])).trans (congrArg boundary (withoutPayload_of_nil empty)))
  · exact congrArg Host.Outcome.next ((can.onHead (by simp [code])).trans (congrArg boundary (if_pos length)))
  · refine congrArg Host.Outcome.next ((can.onHead (by simp [code])).trans (congrArg boundary ?_))
    exact (writeLevel_eq payload low below).trans (dif_neg (by omega))
  · refine congrArg Host.Outcome.next ((can.onHead (by simp [code])).trans (congrArg boundary ?_))
    exact (writeLevel_eq payload low below).trans ((dif_pos ⟨least, most⟩).trans (if_pos high))
  · rintro k rfl fits
    refine ⟨s.notices.writeLevel k.index level, ?_, s.notices.level_writeLevel k level,
      s.notices.entry_writeLevel k level, fun m other => s.notices.writeLevel_other other level⟩
    refine congrArg Host.Outcome.next ((can.onHead (by simp [code])).trans (congrArg boundary ?_))
    exact (writeLevel_eq payload low below).trans ((dif_pos ⟨by omega, by omega⟩).trans (if_neg (by omega)))

/-- Settles O44: the three conditions in their order, whatever the payload; and the two edges of CAL_EN. -/
theorem protectionRefusesInItsOrder : Obligations.ProtectionRefusesInItsOrder := by
  refine ⟨fun s r rest w can listed => ?_, fun s level => ⟨fun same => ?_, fun other starting => ?_, fun other started => ?_⟩⟩
  · have refused {st : Status} (refuses : State.protection { s with requests := rest } = some st) :
        exec (requestRow r.code w) s = .next (boundary (s.answered r rest st [])) := by
      obtain ⟨f, eq⟩ := perform_of_guarded (s := { s with requests := rest }) (w := w) listed
      rw [can.exec_requestRow w, eq, guarded_of_protection refuses]
      rfl
    exact ⟨fun locked => refused (protection_of_locked locked),
      fun enabled busy => refused (protection_of_busyTrain enabled ((busyTrain_iff s).2 busy)),
      fun enabled free committing =>
        refused (protection_of_committing enabled ((busyTrain_eq_false_iff s).2 free) committing)⟩
  · exact congrArg Host.Outcome.next (if_pos same)
  · exact congrArg Host.Outcome.next ((if_neg other).trans (if_pos starting))
  · exact congrArg Host.Outcome.next ((if_neg other).trans (if_neg started))

/-- Settles O36: the place, the Consist List, the pair units and the context at once. -/
theorem summaryEndsTheTrain : Obligations.SummaryEndsTheTrain := by
  intro s c ignoring again ending empty ctx reason hagain
  have due : s.summaryDue = if s.link.records.length < 64 then some c else none := by
    unfold State.summaryDue
    simp only [ending, empty, ctx, true_and, recordCapacity]
  have stays : (c.aborted || c.passagesDuringEnding) = ignoring := by
    rw [Bool.eq_iff_iff, reason, TrainContext.aborted, Bool.or_eq_true, Bool.and_eq_true, Option.isSome_iff_ne_none,
      bne_iff_ne]
  refine ⟨fun room => ?_, fun full => ?_⟩
  · have placed : exec .summaryPlaced s = .next (boundary (placeSummary c s)) := by
      show execSummaryPlaced s = _
      rw [execSummaryPlaced, due, if_pos room]
    rw [placed, hagain, placeSummary]
    dsimp only
    rw [stays]
    cases ignoring <;> rfl
  · show execSummaryPlaced s = _
    rw [execSummaryPlaced, due, if_neg (by omega)]

/-- Settles O47: the commit's refusals in their order, its acceptance, and the two completions. -/
theorem commitsWriteTheStore : Obligations.CommitsWriteTheStore := by
  refine ⟨fun s r rest w can code enabled idle committing => ?_, fun s tag bytes => ⟨fun none => ?_, fun held image => ?_⟩⟩
  · have admitted : State.protection { s with requests := rest } = none :=
      (protection_eq_none _).2 ⟨enabled, (busyTrain_eq_false_iff s).2 idle, committing⟩
    have runs (w : Bool) {t : State} (eq : commitCalibration w r { s with requests := rest } = t) :
        exec (.commitCalibration w) s = .next (boundary t) :=
      congrArg Host.Outcome.next ((can.onHead (by simp [code])).trans (congrArg boundary eq))
    refine ⟨fun carries => runs w ?_, fun empty unready => runs w ?_, fun g k empty ready geometry curve => ⟨fun full => runs w ?_, fun room => ⟨runs _ ?_, runs _ ?_⟩⟩⟩
    all_goals refine (guarded_of_admitted admitted).trans ?_
    · exact if_pos (by simp [carries])
    · exact (if_neg (by simp [empty])).trans (if_pos (by simp [unready]))
    all_goals
      refine (if_neg (by simp [empty])).trans ((if_neg (by simp [ready])).trans ?_)
      rw [show s.cal.committable = some (g, k) by simp only [Calibration.committable, geometry, curve]]
    · exact if_pos full
    · exact (if_neg (Nat.not_le.2 room)).trans (if_neg (by decide))
    · exact (if_neg (Nat.not_le.2 room)).trans (if_pos rfl)
  · constructor <;> simp only [exec, execCommitComplete, none]
  · constructor <;>
      simp only [exec, execCommitComplete, held, completeCommit, StoreImage.completed, image, if_true,
        Bool.false_eq_true, if_false] <;> rfl

/-- Settles O43: the blocks one by one, with the answer of the RESTART itself. -/
theorem restartEmptiesTheBlocks : Obligations.RestartEmptiesTheBlocks := by
  intro s r rest can code
  have runs {t : State} (eq : restart r { s with requests := rest } = t) : exec .restart s = .next (boundary t) :=
    congrArg Host.Outcome.next ((can.onHead (by simp [code])).trans (congrArg boundary eq))
  refine ⟨fun committing => runs (if_pos ?_), fun free carries => runs ((if_neg ?_).trans (if_neg ?_)),
    fun free empty => ⟨answer r .ok [] (restartBlocks { s with requests := rest }),
      runs ((if_neg ?_).trans (if_pos ?_)), rfl, rfl, fun ch => ?_, fun z => ?_, rfl, rfl, rfl, rfl, rfl, rfl, rfl,
      fun k => ?_, rfl, fun i => ?_, rfl⟩⟩
  · exact Option.isSome_iff_ne_none.2 committing
  · simp [free]
  · simp [carries]
  · simp [free]
  · simp [empty]
  · exact (reloadZones_channel _ _ _).trans
      (congrArg (fun i : Fin 8 => Channel.reloaded s.cal.channels[i]) (channelOf_zone_rail ch))
  · exact reloadZones_windows _ z
  · show (Vector.replicate 16 NoticeEntry.reset)[k.index] = NoticeEntry.reset
    simp
  · exact zeroCounters_get _ i

end

section
/-! The writes of the Operating Settings, the Type Table and the counters: their payloads as fields, their checks as tables of
conditions (chapters 9 and 12). -/

namespace Sys2Proof.Machine

/-! ## Codes of one byte -/

theorem VehicleKind.ofCode_isSome_iff (n : Nat) : (VehicleKind.ofCode n).isSome = true ↔ 1 ≤ n ∧ n ≤ 3 :=
  match n with
  | 0 | 1 | 2 | 3 => by decide
  | n + 4 => by simp [VehicleKind.ofCode]

theorem VehicleKind.ofCode_code (k : VehicleKind) : VehicleKind.ofCode k.code = some k := by cases k <;> rfl

theorem CounterEvent.ofCode_isSome_iff (n : Nat) : (CounterEvent.ofCode n).isSome = true ↔ n ≤ 11 :=
  match n with
  | 0 | 1 | 2 | 3 | 4 | 5 | 6 | 7 | 8 | 9 | 10 | 11 => by decide
  | n + 12 => by simp [CounterEvent.ofCode]

theorem CounterEvent.ofCode_code (e : CounterEvent) : CounterEvent.ofCode e.code = some e := by cases e <;> rfl

theorem CounterEvent.code_le (e : CounterEvent) : e.code ≤ 11 := by cases e <;> decide

theorem bne_zero_toNat (b : Bool) : (b.toNat != 0) = b := by cases b <;> rfl

/-! ## Settings (R170) -/

/-- The fields of a WRITE SETTINGS payload (R181). -/
theorem settings_fields {p : List Byte} {q i g d : Nat}
    (payload : p = natBytes 2 q ++ natBytes 2 i ++ natBytes 2 g ++ natBytes 1 d) (hq : q < 65536) (hi : i < 65536)
    (hg : g < 65536) (hd : d < 256) :
    p.length = 7 ∧ natAt p 0 2 = q ∧ natAt p 2 2 = i ∧ natAt p 4 2 = g ∧ natAt p 6 1 = d := by
  have layout : p = layoutBytes [(2, q), (2, i), (2, g), (1, d)] ++ [] := by
    rw [payload]
    simp only [layoutBytes_cons, layoutBytes_nil, List.append_assoc, List.append_nil]
  refine ⟨by simp [payload], ?_, ?_, ?_, ?_⟩ <;> rw [layout]
  · exact natAt_layoutBytes_of_lt 0 rfl rfl hq []
  · exact natAt_layoutBytes_of_lt 1 rfl rfl hi []
  · exact natAt_layoutBytes_of_lt 2 rfl rfl hg []
  · exact natAt_layoutBytes_of_lt 3 rfl rfl hd []

section
variable {s : State} {r : Request}

theorem writeSettings_of_fault {n : Nat} (length : r.payload.length = 7) (fault : settingsFault r.payload = some n) :
    writeSettings r s = answerBadValue r n s := by simp only [writeSettings, length, ne_eq, not_true, if_false, fault]

theorem writeSettings_of_pass (length : r.payload.length = 7) (pass : settingsFault r.payload = none) :
    writeSettings r s = answer r .ok [] { s with settings := parseSettings r.payload } := by
  simp only [writeSettings, length, ne_eq, not_true, if_false, pass]

end

/-! ## Counter selections (R174) -/

/-- The words of a WRITE COUNTER payload (R181). -/
structure SelectionWords where
  index : Nat
  event : Nat
  threshold : Nat
  invert : Nat
  edge : Nat
  low : Nat
  high : Nat

namespace SelectionWords
variable (w : SelectionWords)

def layout : List (Nat × Nat) :=
  [(1, w.index), (1, w.event), (1, w.threshold), (1, w.invert), (1, w.edge), (2, w.low), (2, w.high)]

/-- Every word fits its bytes. -/
structure Fits : Prop where
  index : w.index < 256
  event : w.event < 256
  threshold : w.threshold < 256
  invert : w.invert < 256
  edge : w.edge < 256
  low : w.low < 65536
  high : w.high < 65536

/-- The conditions of R174 in order. -/
def checks : List (Prop × Nat) :=
  [(w.event ≤ 11, 1), (w.threshold ≤ 255, 2), (w.invert ≤ 1, 3), (w.edge ≤ 1, 4), (w.low ≤ 65535, 5),
    (w.low ≤ w.high ∧ w.high ≤ 65535, 6)]

variable {w} {p : List Byte}

theorem fields (payload : p = layoutBytes w.layout ++ []) (fits : w.Fits) :
    natAt p 0 1 = w.index ∧ natAt p 1 1 = w.event ∧ natAt p 2 1 = w.threshold ∧ natAt p 3 1 = w.invert ∧
      natAt p 4 1 = w.edge ∧ natAt p 5 2 = w.low ∧ natAt p 7 2 = w.high := by
  rw [payload]
  exact ⟨natAt_layoutBytes_of_lt 0 rfl rfl fits.index [], natAt_layoutBytes_of_lt 1 rfl rfl fits.event [],
    natAt_layoutBytes_of_lt 2 rfl rfl fits.threshold [], natAt_layoutBytes_of_lt 3 rfl rfl fits.invert [],
    natAt_layoutBytes_of_lt 4 rfl rfl fits.edge [], natAt_layoutBytes_of_lt 5 rfl rfl fits.low [],
    natAt_layoutBytes_of_lt 6 rfl rfl fits.high []⟩

/-- The decided table of R174 is the table of its conditions. -/
theorem fault_conditions (payload : p = layoutBytes w.layout ++ []) (fits : w.Fits) :
    (∀ n, selectionFault p = some n ↔ FirstFails w.checks n) ∧ (selectionFault p = none ↔ ∀ c ∈ w.checks, c.1) := by
  obtain ⟨-, event, threshold, invert, edge, low, high⟩ := fields payload fits
  have same : conditions
      [((CounterEvent.ofCode w.event).isSome, 1), (inRange 0 255 w.threshold, 2), (inRange 0 1 w.invert, 3),
        (inRange 0 1 w.edge, 4), (inRange 0 65535 w.low, 5), (inRange w.low 65535 w.high, 6)] = w.checks := by
    simp only [conditions, List.map_cons, List.map_nil, inRange_iff, Nat.zero_le, true_and, checks,
      CounterEvent.ofCode_isSome_iff]
  unfold selectionFault
  rw [event, threshold, invert, edge, low, high]
  exact ⟨fun n => by rw [firstFailing_some_iff, same], by rw [firstFailing_none_iff, same]⟩

/-- The words of a selection. -/
def of (i : Nat) (x : Selection) : SelectionWords :=
  { index := i, event := x.event.code, threshold := x.threshold, invert := x.invert.toNat, edge := x.edge.toNat
    low := x.low, high := x.high }

theorem of_layout (i : Nat) (x : Selection) :
    natBytes 1 i ++ selectionBytes x = layoutBytes (of i x).layout ++ [] := by
  have bits : [boolByte x.invert, boolByte x.edge] = natBytes 1 x.invert.toNat ++ natBytes 1 x.edge.toNat := by
    rw [← boolByte_eq, ← boolByte_eq]
    rfl
  unfold selectionBytes layout of
  rw [bits]
  simp only [layoutBytes_cons, layoutBytes_nil, List.append_assoc, List.append_nil]

/-- A selection that fits its bytes reads back. -/
theorem of_parse {i : Nat} {x : Selection} (payload : p = layoutBytes (of i x).layout ++ []) (fits : (of i x).Fits) :
    parseSelection p = x := by
  obtain ⟨-, event, threshold, invert, edge, low, high⟩ := fields payload fits
  unfold parseSelection
  rw [event, threshold, invert, edge, low, high]
  simp only [of, CounterEvent.ofCode_code, Option.getD_some, bne_zero_toNat]

theorem of_fits {i : Nat} {x : Selection} (index : i < 256) (threshold : x.threshold ≤ 255) (low : x.low ≤ 65535)
    (high : x.high ≤ 65535) : (of i x).Fits := by
  have event := x.event.code_le
  have invert := x.invert.toNat_le
  have edge := x.edge.toNat_le
  constructor <;> simp only [of] <;> omega

end SelectionWords

section
variable {s : State} {r : Request} {w : SelectionWords}

theorem writeCounter_of_fault (payload : r.payload = layoutBytes w.layout ++ []) (fits : w.Fits) (index : w.index < 4)
    {n : Nat} (fails : FirstFails w.checks n) : writeCounter r s = answerBadValue r n s := by
  have first := (SelectionWords.fields payload fits).1
  have fault := ((SelectionWords.fault_conditions payload fits).1 n).2 fails
  have length : r.payload.length = 9 := by rw [payload]; rfl
  simp only [writeCounter, length, ne_eq, not_true, if_false, first, index, dif_pos, fault]

theorem writeCounter_of_pass (payload : r.payload = layoutBytes w.layout ++ []) (fits : w.Fits) (index : w.index < 4)
    (passes : ∀ c ∈ w.checks, c.1) :
    writeCounter r s =
      answer r .ok []
        { s with
          counters := s.counters.set w.index { Counter.reset with selection := parseSelection r.payload } index } := by
  have first := (SelectionWords.fields payload fits).1
  have fault := (SelectionWords.fault_conditions payload fits).2.2 passes
  have length : r.payload.length = 9 := by rw [payload]; rfl
  simp only [writeCounter, length, ne_eq, not_true, if_false, first, index, dif_pos, fault]

end

theorem counterBytes_length (c : Counter) : (counterBytes c).length = 13 := rfl

/-- R182: a counter's entry in the READ COUNTERS answer. -/
theorem counterBytes_fields (c : Counter) (rest : List Byte) :
    natAt (counterBytes c ++ rest) 0 4 = c.value % 4294967296 ∧
      natAt (counterBytes c ++ rest) 4 1 = c.overflow.toNat ∧
        ((counterBytes c ++ rest).drop 5).take 8 = selectionBytes c.selection := by
  have layout : counterBytes c ++ rest =
      layoutBytes [(4, c.value), (1, c.overflow.toNat)] ++ (selectionBytes c.selection ++ rest) := by
    unfold counterBytes
    rw [boolByte_eq]
    simp only [layoutBytes_cons, layoutBytes_nil, List.append_assoc, List.append_nil]
  rw [layout]
  refine ⟨natAt_layoutBytes 0 rfl rfl _, natAt_layoutBytes_of_lt 1 rfl rfl ?_ _, ?_⟩
  · have := c.overflow.toNat_le
    omega
  · rw [List.drop_append_of_le_length (by rw [layoutBytes_length]; rfl),
      List.drop_eq_nil_of_le (by rw [layoutBytes_length]; rfl), List.nil_append]
    exact List.take_left' rfl

/-! ## Samples (R176) -/

/-- A sample adds its quantity at threshold 0, else 1 where its condition counts. -/
theorem Counter.sample_spec (q : Nat) (c : Counter) :
    (c.sample q).1.selection = c.selection ∧
      (c.selection.threshold = 0 →
        (c.sample q).1.value = min 4294967295 (c.value + q) ∧ (c.sample q).1.previous = c.previous) ∧
      (c.selection.threshold ≠ 0 →
        (c.sample q).1.previous = c.selection.holds q ∧
          (c.selection.holds q = true → c.selection.edge = false ∨ c.previous = false → c.value < 4294967295 →
            (c.sample q).1.value = c.value + 1) ∧
          (c.selection.holds q = false ∨ (c.selection.edge = true ∧ c.previous = true) →
            (c.sample q).1.value = c.value)) := by
  have kept (n : Nat) : (c.add n).1.previous = c.previous := by
    unfold Counter.add
    split <;> rfl
  by_cases summing : c.selection.threshold = 0
  · rw [Counter.sample, if_pos summing]
    obtain ⟨value, -, -, selection⟩ := Counter.add_spec q c
    exact ⟨selection, fun _ => ⟨value, kept q⟩, fun no => absurd summing no⟩
  · rw [Counter.sample, if_neg summing]
    dsimp only
    obtain ⟨value, -, -, selection⟩ := Counter.add_spec 1 c
    refine ⟨?_, fun no => absurd no summing, fun _ => ⟨rfl, fun holds free low => ?_, fun still => ?_⟩⟩
    · split
      · exact selection
      · rfl
    · have counts : (c.selection.holds q && !(c.selection.edge && c.previous)) = true := by
        rcases free with edge | previous <;> simp [*]
      rw [if_pos counts, value, counterMax]
      omega
    · have rests : (c.selection.holds q && !(c.selection.edge && c.previous)) = false := by
        rcases still with fails | ⟨edge, previous⟩ <;> simp [*]
      rw [rests]
      rfl

theorem Selection.holds_iff (x : Selection) (q : Nat) :
    x.holds q = true ↔ (x.invert = false ∧ x.threshold ≤ q) ∨ (x.invert = true ∧ q < x.threshold) := by
  unfold Selection.holds
  cases x.invert <;> simp

end Sys2Proof.Machine

open Sys2Proof Sys2Proof.Machine

/-- Settles O42: the payload's words against the table of R174, the entries of 13 bytes, and one counter's sample. -/
theorem countersAreSelectedSampledAndZeroed : Obligations.CountersAreSelectedSampledAndZeroed := by
  refine ⟨fun s r rest can => ⟨fun code => ?_, fun code empty => ?_, fun code empty => ?_⟩, ?_⟩
  · have runs {t : State} (eq : writeCounter r { s with requests := rest } = t) :
        exec .writeCounter s = .next (boundary t) :=
      congrArg Host.Outcome.next ((can.onHead (by simp [code])).trans (congrArg boundary eq))
    refine ⟨fun length => runs (if_pos length), fun i x payload least most => runs ?_,
      fun i x payload threshold high => ⟨fun ordered => runs ?_, fun crossed low => runs ?_⟩,
      fun i event threshold invert edge low high f payload he ht hi hd hl hh fails => runs ?_⟩
    · have first : natAt r.payload 0 1 = i := by rw [payload, natAt_front_of_lt _ most]
      have length : r.payload.length = 9 := by rw [payload]; rfl
      exact (if_neg (by simp [length])).trans (dif_neg (by omega))
    · have fits : (SelectionWords.of i x).Fits := SelectionWords.of_fits (by omega) threshold (by omega) high
      rw [SelectionWords.of_layout] at payload
      refine (writeCounter_of_pass payload fits i.isLt ?_).trans ?_
      · have := x.event.code_le
        have := x.invert.toNat_le
        have := x.edge.toNat_le
        simp only [SelectionWords.checks, SelectionWords.of, List.forall_mem_cons, List.not_mem_nil, false_implies,
          implies_true, and_true]
        omega
      · rw [SelectionWords.of_parse payload fits]
        rfl
    · have fits : (SelectionWords.of i x).Fits := SelectionWords.of_fits (by omega) threshold low high
      rw [SelectionWords.of_layout] at payload
      refine (writeCounter_of_fault payload fits i.isLt ?_ : _ = answerBadValue r 6 _)
      have := x.event.code_le
      have := x.invert.toNat_le
      have := x.edge.toNat_le
      refine ⟨(SelectionWords.of i x).checks.take 5, _, [], rfl, ?_, ?_⟩
      · simp only [SelectionWords.checks, SelectionWords.of, List.take_succ_cons, List.take_zero, List.forall_mem_cons, List.not_mem_nil, false_implies,
          implies_true, and_true]
        omega
      · simp only [SelectionWords.of]
        omega
    · have layout : r.payload =
          layoutBytes (SelectionWords.layout ⟨i, event, threshold, invert, edge, low, high⟩) ++ [] := by
        rw [payload]
        simp only [SelectionWords.layout, layoutBytes_cons, layoutBytes_nil, List.append_assoc, List.append_nil]
      have index : i.val < 256 := by omega
      exact writeCounter_of_fault layout ⟨index, he, ht, hi, hd, hl, hh⟩ i.isLt fails
  · refine ⟨s.counters.toList.flatMap counterBytes, congrArg Host.Outcome.next
      ((can.onHead (by simp [code])).trans (congrArg boundary (withoutPayload_of_nil empty))), ?_, fun i => ?_⟩
    · rw [length_flatMap_of_length counterBytes_length]
      simp
    · have entry : s.counters.toList[i.val]? = some s.counters[i] := by simp
      obtain ⟨rest, at'⟩ := drop_flatMap counterBytes_length entry
      obtain ⟨value, overflow, selection⟩ := counterBytes_fields s.counters[i] rest
      rw [← at'] at value overflow selection
      refine ⟨(natAt_drop _ (13 * i) 0 4).trans value, (natAt_drop _ _ _ _).trans overflow, ?_⟩
      rw [← List.drop_drop]
      exact selection
  · exact ⟨(zeroCounters s).counters, congrArg Host.Outcome.next
      ((can.onHead (by simp [code])).trans (congrArg boundary (withoutPayload_of_nil empty))), zeroCounters_get s⟩
  · rintro s i q c d condition rfl hd holds sampled
    have truth : condition = s.counters[i].selection.holds q := by
      rw [Bool.eq_iff_iff, holds, Selection.holds_iff]
    have sample : d = (s.counters[i].sample q).1 := by
      rw [hd, sampleOccupancy, updateCounters_get]
      rcases sampled with ⟨event, rfl⟩ | ⟨event, rfl⟩ | ⟨event, rfl⟩ <;> simp only [event]
    rw [truth, sample]
    exact Counter.sample_spec q _

end

section
/-! WRITE SETTINGS and WRITE TYPE: the Type Table entry as words and spacings (R127, R128, R170, R181). -/

namespace Sys2Proof.Machine

/-! ## The words of an entry -/

/-- The words of a WRITE TYPE payload before its spacings (R181). -/
structure TypeWords where
  index : Nat
  code : Nat
  kind : Nat
  count : Nat
  tolerance : Nat
  gap : Nat
  present : Nat
  tare : Nat
  gross : Nat

theorem spacingsOf_flatMap {l : List Nat} (fits : ∀ d ∈ l, d < 65536) : spacingsOf (l.flatMap (natBytes 2)) = l := by
  induction l with
  | nil => rfl
  | cons d l ih =>
    obtain ⟨fit, fits⟩ := List.forall_mem_cons.1 fits
    have value : be (natBytes 2 d) = d := be_natBytes_of_lt fit
    rw [natBytes_two] at value
    rw [List.flatMap_cons, natBytes_two]
    simp only [List.cons_append, List.nil_append, spacingsOf, value, ih fits]

theorem conditions_spacingChecks (n : Nat) (l : List Nat) :
    conditions (spacingChecks n l) = (l.zipIdx).map fun d => (500 ≤ d.1 ∧ d.1 ≤ 20000, n + d.2) := by
  suffices ∀ k, conditions (spacingChecks (n + k) l) = (l.zipIdx k).map fun d => (500 ≤ d.1 ∧ d.1 ≤ 20000, n + d.2) from
    this 0
  intro k
  induction l generalizing k with
  | nil => rfl
  | cons d l ih =>
    rw [spacingChecks, conditions_cons, Nat.add_assoc, ih, List.zipIdx_cons, List.map_cons]
    simp only [inRange_iff]

/-- R128: no other entry holds the code. -/
theorem codeTaken_eq_false_iff (types : Vector (Option VehicleType) 32) (i : Fin 32) (code : Nat) :
    codeTaken types.toList i code = false ↔
      ∀ (j : Fin 32) (o : VehicleType), j ≠ i → types[j] = some o → o.code ≠ code := by
  unfold codeTaken
  rw [List.any_eq_false]
  constructor
  · intro free j o other held taken
    have mem : (types[j], j.val) ∈ types.toList.zipIdx := by
      rw [List.mk_mem_zipIdx_iff_getElem?]
      simp
    refine free _ mem ?_
    have apart : j.val ≠ i.val := fun e => other (Fin.ext e)
    simp [held, taken, apart]
  · rintro free ⟨e, k⟩ mem taken
    rw [List.mk_mem_zipIdx_iff_getElem?] at mem
    obtain ⟨low, rfl⟩ := List.getElem?_eq_some_iff.1 mem
    simp only [Bool.and_eq_true, bne_iff_ne, ne_eq, beq_iff_eq, Option.map_eq_some_iff] at taken
    obtain ⟨other, o, held, same⟩ := taken
    exact free ⟨k, by simpa using low⟩ o (fun e => other (congrArg Fin.val e)) (by simpa using held) same

namespace TypeWords
variable (w : TypeWords)

def layout : List (Nat × Nat) :=
  [(1, w.index), (1, w.code), (1, w.kind), (1, w.count), (2, w.tolerance), (2, w.gap), (1, w.present), (4, w.tare),
    (4, w.gross)]

/-- Every word fits its bytes. -/
structure Fits : Prop where
  index : w.index < 256
  code : w.code < 256
  kind : w.kind < 256
  count : w.count < 256
  tolerance : w.tolerance < 65536
  gap : w.gap < 65536
  present : w.present < 256
  tare : w.tare < 4294967296
  gross : w.gross < 4294967296

/-- The entry that the words and spacings say. -/
def type (spacings : List Nat) : VehicleType :=
  { code := w.code
    kind := (VehicleKind.ofCode w.kind).getD .other
    tolerance := w.tolerance
    gapMin := w.gap
    tare := if w.present.testBit 0 then some w.tare else none
    maxGross := if w.present.testBit 1 then some w.gross else none
    spacings }

/-- The conditions of R127 and R128 in order. -/
def checks (types : Vector (Option VehicleType) 32) (i : Fin 32) (spacings : List Nat) : List (Prop × Nat) :=
  [(1 ≤ w.code ∧ ∀ (j : Fin 32) (o : VehicleType), j ≠ i → types[j] = some o → o.code ≠ w.code, 1),
      (1 ≤ w.kind ∧ w.kind ≤ 3, 2), (2 ≤ w.count ∧ w.count ≤ 8, 3), (w.tolerance ≤ 500, 4),
      (1000 ≤ w.gap ∧ w.gap ≤ 10000, 5), (w.present.testBit 0 = true → w.tare ≤ 200000, 6),
      (w.present.testBit 1 = true → 1 ≤ w.gross ∧ w.gross ≤ 1048560, 7)] ++
    spacings.zipIdx.map fun d => (500 ≤ d.1 ∧ d.1 ≤ 20000, 8 + d.2)

variable {w} {q p : List Byte}

theorem behind (payload : q = layoutBytes w.layout ++ p) : q.drop 17 = p := by
  rw [payload]
  exact List.drop_left' (by rw [layoutBytes_length]; rfl)

theorem length (payload : q = layoutBytes w.layout ++ p) : q.length = 17 + p.length := by
  rw [payload, List.length_append, layoutBytes_length]
  rfl

theorem index_field (payload : q = layoutBytes w.layout ++ p) (fits : w.Fits) : natAt q 0 1 = w.index := by
  rw [payload]
  exact natAt_layoutBytes_of_lt 0 rfl rfl fits.index p

theorem kind_field (payload : q = layoutBytes w.layout ++ p) (fits : w.Fits) : natAt q 2 1 = w.kind := by
  rw [payload]
  exact natAt_layoutBytes_of_lt 2 rfl rfl fits.kind p

theorem count_field (payload : q = layoutBytes w.layout ++ p) (fits : w.Fits) : natAt q 3 1 = w.count := by
  rw [payload]
  exact natAt_layoutBytes_of_lt 3 rfl rfl fits.count p

/-- The words that the entry takes as they are. -/
theorem word_fields (payload : q = layoutBytes w.layout ++ p) (fits : w.Fits) :
    natAt q 1 1 = w.code ∧ natAt q 4 2 = w.tolerance ∧ natAt q 6 2 = w.gap ∧ natAt q 9 4 = w.tare ∧
      natAt q 13 4 = w.gross := by
  rw [payload]
  exact ⟨natAt_layoutBytes_of_lt 1 rfl rfl fits.code p, natAt_layoutBytes_of_lt 4 rfl rfl fits.tolerance p,
    natAt_layoutBytes_of_lt 5 rfl rfl fits.gap p, natAt_layoutBytes_of_lt 7 rfl rfl fits.tare p,
    natAt_layoutBytes_of_lt 8 rfl rfl fits.gross p⟩

theorem presentBit_eq (payload : q = layoutBytes w.layout ++ p) (fits : w.Fits) (k : Nat) :
    presentBit q 8 k = w.present.testBit k := by
  have byte : byteAt q 8 = BitVec.ofNat 8 w.present := by
    rw [payload]
    rfl
  unfold presentBit
  rw [byte, BitVec.getLsbD_ofNat]
  by_cases high : k < 8
  · simp [high]
  · have : w.present.testBit k = false := by
      refine Nat.testBit_lt_two_pow (lt_of_lt_of_le fits.present ?_)
      exact (by norm_num : 256 = 2 ^ 8) ▸ Nat.pow_le_pow_right (by norm_num) (by omega)
    simp [this]

/-- The entry reads back (R181). -/
theorem parse (payload : q = layoutBytes w.layout ++ p) (fits : w.Fits) : parseType q = w.type (spacingsOf p) := by
  obtain ⟨code, tolerance, gap, tare, gross⟩ := word_fields payload fits
  unfold parseType
  rw [presentBit_eq payload fits, presentBit_eq payload fits, behind payload, kind_field payload fits, code, tolerance,
    gap, tare, gross]
  rfl

theorem shape_iff (payload : q = layoutBytes w.layout ++ p) (fits : w.Fits) :
    typeShape q = true ↔ 1 ≤ w.count ∧ p.length = 2 * (w.count - 1) := by
  unfold typeShape
  rw [count_field payload fits, length payload]
  simp only [Bool.and_eq_true, decide_eq_true_eq]
  omega

/-- The decided table of R128 is the table of its conditions. -/
theorem fault_conditions (payload : q = layoutBytes w.layout ++ p) (fits : w.Fits)
    (types : Vector (Option VehicleType) 32) {i : Fin 32} (index : w.index = i) :
    (∀ n, typeFault types.toList q = some n ↔ FirstFails (w.checks types i (spacingsOf p)) n) ∧
      (typeFault types.toList q = none ↔ ∀ c ∈ w.checks types i (spacingsOf p), c.1) := by
  have code : (inRange 1 255 w.code && !codeTaken types.toList w.index w.code) = true ↔
      1 ≤ w.code ∧ ∀ (j : Fin 32) (o : VehicleType), j ≠ i → types[j] = some o → o.code ≠ w.code := by
    rw [Bool.and_eq_true, inRange_iff, Bool.not_eq_true', index, codeTaken_eq_false_iff]
    exact and_congr_left fun _ => ⟨And.left, fun low => ⟨low, Nat.le_of_lt_succ fits.code⟩⟩
  have tare : inRange 0 200000 ((w.type (spacingsOf p)).tare.getD 0) = true ↔
      (w.present.testBit 0 = true → w.tare ≤ 200000) := by
    simp only [inRange_iff, type]
    cases w.present.testBit 0 <;> simp
  have gross : inRange 1 1048560 ((w.type (spacingsOf p)).maxGross.getD 1) = true ↔
      (w.present.testBit 1 = true → 1 ≤ w.gross ∧ w.gross ≤ 1048560) := by
    simp only [inRange_iff, type]
    cases w.present.testBit 1 <;> simp
  have same : conditions
      ([(inRange 1 255 w.code && !codeTaken types.toList w.index w.code, 1),
        ((VehicleKind.ofCode w.kind).isSome, 2), (inRange 2 8 w.count, 3), (inRange 0 500 w.tolerance, 4),
        (inRange 1000 10000 w.gap, 5), (inRange 0 200000 ((w.type (spacingsOf p)).tare.getD 0), 6),
        (inRange 1 1048560 ((w.type (spacingsOf p)).maxGross.getD 1), 7)] ++ spacingChecks 8 (spacingsOf p)) =
      w.checks types i (spacingsOf p) := by
    rw [conditions_append, conditions_spacingChecks]
    simp only [conditions, List.map_cons, List.map_nil, checks, code, tare, gross, inRange_iff, Nat.zero_le, true_and,
      VehicleKind.ofCode_isSome_iff]
  unfold typeFault
  rw [parse payload fits, index_field payload fits, kind_field payload fits, count_field payload fits]
  exact ⟨fun n => by rw [firstFailing_some_iff]; exact iff_of_eq (congrArg (FirstFails · n) same),
    by rw [firstFailing_none_iff]; exact iff_of_eq (congrArg (fun l => ∀ c ∈ l, c.1) same)⟩

/-- The words of an entry. -/
def of (i : Nat) (t : VehicleType) : TypeWords :=
  { index := i, code := t.code, kind := t.kind.code, count := t.axles, tolerance := t.tolerance, gap := t.gapMin
    present := t.tare.isSome.toNat + 2 * t.maxGross.isSome.toNat, tare := t.tare.getD 0, gross := t.maxGross.getD 0 }

theorem of_layout (i : Nat) (t : VehicleType) :
    natBytes 1 i ++ typeBytes t = layoutBytes (of i t).layout ++ t.spacings.flatMap (natBytes 2) := by
  have bits : [bitsByte [t.tare.isSome, t.maxGross.isSome]] = natBytes 1 (t.tare.isSome.toNat + 2 * t.maxGross.isSome.toNat) := by
    generalize t.tare.isSome = a
    generalize t.maxGross.isSome = b
    cases a <;> cases b <;> rfl
  unfold typeBytes layout of optBytes
  rw [bits]
  simp only [layoutBytes_cons, layoutBytes_nil, List.append_assoc, List.append_nil]

theorem of_present_tare (i : Nat) (t : VehicleType) : (of i t).present.testBit 0 = t.tare.isSome := by
  unfold of
  dsimp only
  cases t.tare.isSome <;> cases t.maxGross.isSome <;> decide

theorem of_present_gross (i : Nat) (t : VehicleType) : (of i t).present.testBit 1 = t.maxGross.isSome := by
  unfold of
  dsimp only
  cases t.tare.isSome <;> cases t.maxGross.isSome <;> decide

theorem of_shape (i : Nat) (t : VehicleType) :
    1 ≤ (of i t).count ∧
      (t.spacings.flatMap (natBytes 2)).length = 2 * ((of i t).count - 1) := by
  rw [length_flatMap_of_length fun d => natBytes_length 2 d]
  simp only [of, VehicleType.axles]
  omega

theorem of_type (i : Nat) (t : VehicleType) : (of i t).type t.spacings = t := by
  have tare : (if t.tare.isSome = true then some (t.tare.getD 0) else none) = t.tare := by cases t.tare <;> rfl
  have gross : (if t.maxGross.isSome = true then some (t.maxGross.getD 0) else none) = t.maxGross := by
    cases t.maxGross <;> rfl
  unfold type
  rw [of_present_tare, of_present_gross]
  simp only [of, VehicleKind.ofCode_code, Option.getD_some, tare, gross]

end TypeWords

section
variable {s : State} {r : Request} {w : TypeWords} {p : List Byte}

/-- WRITE TYPE outside a train, of the words of an entry (R128). -/
theorem writeType_eq (free : s.busyTrain = false) (payload : r.payload = layoutBytes w.layout ++ p) (fits : w.Fits)
    {i : Fin 32} (index : w.index = i) :
    writeType r s =
      if typeShape r.payload = false then answer r .malformed [] s
      else
        match typeFault s.asm.types.toList r.payload with
        | some n => answerBadValue r n s
        | none => answer r .ok [] (setType i (some (w.type (spacingsOf p))) s) := by
  have first : natAt r.payload 0 1 = i := (TypeWords.index_field payload fits).trans index
  have length := TypeWords.length payload
  have empty : r.payload.isEmpty = false := by
    rw [payload]
    rfl
  have one : r.payload.length ≠ 1 := by omega
  unfold writeType
  (simp only [free, empty, first, i.isLt, one, if_false, Bool.false_eq_true, dif_pos, TypeWords.parse payload fits]) <;> rfl

theorem writeType_of_shape (free : s.busyTrain = false) (payload : r.payload = layoutBytes w.layout ++ p) (fits : w.Fits)
    {i : Fin 32} (index : w.index = i) (shape : ¬(1 ≤ w.count ∧ p.length = 2 * (w.count - 1))) :
    writeType r s = answer r .malformed [] s := by
  rw [writeType_eq free payload fits index, if_pos]
  rwa [← Bool.not_eq_true, TypeWords.shape_iff payload fits]

theorem writeType_of_fault (free : s.busyTrain = false) (payload : r.payload = layoutBytes w.layout ++ p) (fits : w.Fits)
    {i : Fin 32} (index : w.index = i) (shape : 1 ≤ w.count ∧ p.length = 2 * (w.count - 1)) {n : Nat}
    (fails : FirstFails (w.checks s.asm.types i (spacingsOf p)) n) : writeType r s = answerBadValue r n s := by
  have fault := ((TypeWords.fault_conditions payload fits s.asm.types index).1 n).2 fails
  rw [writeType_eq free payload fits index, if_neg, fault]
  rw [(TypeWords.shape_iff payload fits).2 shape]
  decide

theorem writeType_of_pass (free : s.busyTrain = false) (payload : r.payload = layoutBytes w.layout ++ p) (fits : w.Fits)
    {i : Fin 32} (index : w.index = i) (shape : 1 ≤ w.count ∧ p.length = 2 * (w.count - 1))
    (passes : ∀ c ∈ w.checks s.asm.types i (spacingsOf p), c.1) :
    writeType r s = answer r .ok [] (setType i (some (w.type (spacingsOf p))) s) := by
  have pass := (TypeWords.fault_conditions payload fits s.asm.types index).2.2 passes
  rw [writeType_eq free payload fits index, if_neg, pass]
  rw [(TypeWords.shape_iff payload fits).2 shape]
  decide

/-- WRITE TYPE of an index outside the table (R128). -/
theorem writeType_of_index {n : Nat} {q : List Byte} (free : s.busyTrain = false) (payload : r.payload = natBytes 1 n ++ q)
    (high : 32 ≤ n) (low : n < 256) : writeType r s = answer r .badIndex [] s := by
  have first : natAt r.payload 0 1 = n := by rw [payload, natAt_front_of_lt _ low]
  have carries : r.payload.isEmpty = false := by
    rw [payload]
    rfl
  unfold writeType
  simp only [free, carries, first, Bool.false_eq_true, if_false, dif_neg (Nat.not_lt.2 high)]

/-- WRITE TYPE of the index alone empties the entry (R128). -/
theorem writeType_of_alone {i : Fin 32} (free : s.busyTrain = false) (payload : r.payload = natBytes 1 i) :
    writeType r s = answer r .ok [] (setType i none s) := by
  have first : natAt r.payload 0 1 = i := by rw [payload, natAt_natBytes, Nat.mod_eq_of_lt (by omega)]
  have carries : r.payload.isEmpty = false := by
    rw [payload]
    rfl
  have one : r.payload.length = 1 := by rw [payload]; rfl
  unfold writeType
  simp only [free, carries, first, i.isLt, one, Bool.false_eq_true, if_false, if_true, dif_pos]

/-- WRITE TYPE too short for an entry (notes/assumptions/19.md). -/
theorem writeType_of_short {i : Fin 32} {q : List Byte} (free : s.busyTrain = false)
    (payload : r.payload = natBytes 1 i ++ q) (some : 1 ≤ q.length) (few : q.length < 16) :
    writeType r s = answer r .malformed [] s := by
  have first : natAt r.payload 0 1 = i := by rw [payload, natAt_front_of_lt _ (by omega)]
  have length : r.payload.length = 1 + q.length := by rw [payload, List.length_append, natBytes_length]
  have carries : r.payload.isEmpty = false := by
    rw [payload]
    rfl
  have one : r.payload.length ≠ 1 := by omega
  have shape : typeShape r.payload = false := by simp [typeShape, show ¬17 ≤ r.payload.length by omega]
  unfold writeType
  simp only [free, carries, first, i.isLt, one, shape, Bool.false_eq_true, if_false, if_true, dif_pos]

end

/-! ## An entry in its ranges -/

/-- The ranges of R127. -/
structure VehicleType.InRange (t : VehicleType) : Prop where
  code : 1 ≤ t.code ∧ t.code ≤ 255
  tolerance : t.tolerance ≤ 500
  gapMin : 1000 ≤ t.gapMin ∧ t.gapMin ≤ 10000
  tare : ∀ n, t.tare = some n → n ≤ 200000
  maxGross : ∀ n, t.maxGross = some n → 1 ≤ n ∧ n ≤ 1048560
  count : 1 ≤ t.spacings.length ∧ t.spacings.length ≤ 7
  spacings : ∀ d ∈ t.spacings, 500 ≤ d ∧ d ≤ 20000

section
variable {t : VehicleType} (h : t.InRange)
include h

theorem VehicleType.InRange.tare_le : t.tare.getD 0 ≤ 200000 := by
  cases held : t.tare with
  | none => simp
  | some x => exact h.tare x held

theorem VehicleType.InRange.maxGross_le : t.maxGross.getD 0 ≤ 1048560 := by
  cases held : t.maxGross with
  | none => simp
  | some x => exact (h.maxGross x held).2

theorem VehicleType.InRange.spacingsOf : spacingsOf (t.spacings.flatMap (natBytes 2)) = t.spacings :=
  spacingsOf_flatMap fun d mem => by
    have := (h.spacings d mem).2
    omega

theorem VehicleType.InRange.fits {i : Nat} (index : i < 256) : (TypeWords.of i t).Fits := by
  have kind := (VehicleKind.ofCode_isSome_iff t.kind.code).1 (by rw [VehicleKind.ofCode_code]; rfl)
  obtain ⟨code, tolerance, gap, -, -, count, -⟩ := id h
  have tare := h.tare_le
  have gross := h.maxGross_le
  have := t.tare.isSome.toNat_le
  have := t.maxGross.isSome.toNat_le
  constructor <;> simp only [TypeWords.of, VehicleType.axles] <;> omega

/-- An entry in its ranges passes every check when no other holds its code (R128). -/
theorem VehicleType.InRange.passes {types : Vector (Option VehicleType) 32} {i : Fin 32}
    (alone : ∀ (j : Fin 32) (o : VehicleType), j ≠ i → types[j] = some o → o.code ≠ t.code) :
    ∀ c ∈ (TypeWords.of i t).checks types i t.spacings, c.1 := by
  have kind := (VehicleKind.ofCode_isSome_iff t.kind.code).1 (by rw [VehicleKind.ofCode_code]; rfl)
  have count := h.count
  have axles : (TypeWords.of i t).count = t.spacings.length + 1 := rfl
  unfold TypeWords.checks
  rw [TypeWords.of_present_tare, TypeWords.of_present_gross, axles]
  simp only [List.cons_append, List.nil_append, List.forall_mem_cons, List.forall_mem_map]
  refine ⟨⟨h.code.1, alone⟩, kind, by omega, h.tolerance, h.gapMin, fun _ => h.tare_le, fun held => ?_, fun d mem => ?_⟩
  · obtain ⟨x, eq⟩ := Option.isSome_iff_exists.1 held
    simpa only [TypeWords.of, eq, Option.getD_some] using h.maxGross x eq
  · exact h.spacings _ (List.fst_mem_of_mem_zipIdx mem)

end

/-! ## Settings written -/

section
variable {s : State} {r : Request}

theorem writeSettings_of_settings {x : Settings} (payload : r.payload = settingsBytes x)
    (quiet : 100 ≤ x.quietTime ∧ x.quietTime ≤ 65535) (wait : x.idWait ≤ 65535)
    (gap : 1000 ≤ x.splitGap ∧ x.splitGap ≤ 6000) :
    writeSettings r s = answer r .ok [] { s with settings := x } := by
  have flag := x.axleDetail.toNat_le
  have words : r.payload =
      natBytes 2 x.quietTime ++ natBytes 2 x.idWait ++ natBytes 2 x.splitGap ++ natBytes 1 x.axleDetail.toNat := by
    rw [payload, settingsBytes, boolByte_eq]
  obtain ⟨length, q, i, g, d⟩ := settings_fields words (by omega) (by omega) (by omega) (by omega)
  have pass : settingsFault r.payload = none := by
    unfold settingsFault
    rw [q, i, g, d, firstFailing_none_iff]
    simp only [conditions, List.map_cons, List.map_nil, inRange_iff, List.forall_mem_cons, List.not_mem_nil,
      false_implies, implies_true, and_true]
    omega
  have parsed : parseSettings r.payload = x := by
    unfold parseSettings
    rw [q, i, g, d, bne_zero_toNat]
  rw [writeSettings_of_pass length pass, parsed]

theorem writeSettings_of_words {q i g d n : Nat}
    (payload : r.payload = natBytes 2 q ++ natBytes 2 i ++ natBytes 2 g ++ natBytes 1 d) (hq : q < 65536)
    (hi : i < 65536) (hg : g < 65536) (hd : d < 256)
    (fails : firstFailing [(inRange 100 65535 q, 1), (inRange 0 65535 i, 2), (inRange 1000 6000 g, 3),
      (inRange 0 1 d, 4)] = some n) : writeSettings r s = answerBadValue r n s := by
  obtain ⟨length, quiet, wait, gap, detail⟩ := settings_fields payload hq hi hg hd
  refine writeSettings_of_fault length ?_
  unfold settingsFault
  rw [quiet, wait, gap, detail, fails]

theorem inRange_eq_false {lo hi x : Nat} (outside : x < lo ∨ hi < x) : inRange lo hi x = false := by
  rw [Bool.eq_false_iff, Ne, inRange_iff]
  omega

end

end Sys2Proof.Machine

open Sys2Proof Sys2Proof.Machine

/-- Settles O41: the four words of the settings, and the words and spacings of a type, against their tables of checks. -/
theorem settingsAndTypesAreWritten : Obligations.SettingsAndTypesAreWritten := by
  intro s r rest can
  refine ⟨fun code => ?_, fun code => ⟨fun busy => ?_, fun idle => ?_⟩⟩
  · have runs {t : State} (eq : writeSettings r { s with requests := rest } = t) :
        exec .writeSettings s = .next (boundary t) :=
      congrArg Host.Outcome.next ((can.onHead (by simp [code])).trans (congrArg boundary eq))
    refine ⟨fun length => runs (if_pos length), fun x payload q0 q1 i1 g0 g1 =>
      runs (writeSettings_of_settings payload ⟨q0, q1⟩ i1 ⟨g0, g1⟩), fun q i g d payload hq hi hg hd => ?_⟩
    have wait : inRange 0 65535 i = true := (inRange_iff _ _ _).2 ⟨i.zero_le, Nat.le_of_lt_succ hi⟩
    have quiet (enough : 100 ≤ q) : inRange 100 65535 q = true := (inRange_iff _ _ _).2 ⟨enough, Nat.le_of_lt_succ hq⟩
    refine ⟨fun low => runs (writeSettings_of_words (n := 1) payload hq hi hg hd ?_),
      fun enough outside => runs (writeSettings_of_words (n := 3) payload hq hi hg hd ?_),
      fun enough least most high => runs (writeSettings_of_words (n := 4) payload hq hi hg hd ?_)⟩
    · simp [firstFailing, inRange_eq_false (.inl low)]
    · simp [firstFailing, quiet enough, wait, inRange_eq_false outside]
    · simp [firstFailing, quiet enough, wait, (inRange_iff 1000 6000 g).2 ⟨least, most⟩,
        inRange_eq_false (lo := 0) (.inr high)]
  all_goals
    have runs {t : State} (eq : writeType r { s with requests := rest } = t) :
        exec .writeType s = .next (boundary t) :=
      congrArg Host.Outcome.next ((can.onHead (by simp [code])).trans (congrArg boundary eq))
  · exact runs (if_pos ((busyTrain_iff s).2 busy))
  · have free : State.busyTrain { s with requests := rest } = false := (busyTrain_eq_false_iff s).2 idle
    refine ⟨fun i p payload high low => runs (writeType_of_index free payload high low),
      fun i payload => runs (writeType_of_alone free payload),
      fun empty => runs ((if_neg (Bool.eq_false_iff.1 free)).trans (if_pos (by rw [empty]; rfl))),
      fun i p payload some few => runs (writeType_of_short free payload some few), ?_, ?_⟩
    · intro i code kind n tolerance gap present tare gross p payload hc hk hn ht hg hp ha hm
      have index : i.val < 256 := by omega
      have layout : r.payload =
          layoutBytes (TypeWords.layout ⟨i, code, kind, n, tolerance, gap, present, tare, gross⟩) ++ p := by
        rw [payload]
        simp only [TypeWords.layout, layoutBytes_cons, layoutBytes_nil, List.append_assoc, List.nil_append]
      have fits : TypeWords.Fits ⟨i, code, kind, n, tolerance, gap, present, tare, gross⟩ :=
        ⟨index, hc, hk, hn, ht, hg, hp, ha, hm⟩
      refine ⟨fun shape => runs (writeType_of_shape free layout fits rfl ?_), fun spacings f eq low count fails =>
        runs (writeType_of_fault free layout fits rfl ?_ ?_)⟩
      · show ¬(1 ≤ n ∧ p.length = 2 * (n - 1))
        omega
      · have : p.length = 2 * spacings.length := by rw [eq, length_flatMap_of_length fun d => natBytes_length 2 d]
        show 1 ≤ n ∧ p.length = 2 * (n - 1)
        omega
      · rw [eq, spacingsOf_flatMap low]
        exact fails
    · intro i t payload c0 c1 tol g0 g1 tare gross n1 n7 spacings
      rw [TypeWords.of_layout] at payload
      have ranges : t.InRange := ⟨⟨c0, c1⟩, tol, ⟨g0, g1⟩, tare, gross, ⟨n1, n7⟩, spacings⟩
      have fits : (TypeWords.of i t).Fits := ranges.fits (by omega)
      have read := ranges.spacingsOf
      refine ⟨fun alone => runs ?_, fun ⟨j, o, other, held, same⟩ =>
        runs (writeType_of_fault (n := 1) free payload fits rfl (TypeWords.of_shape i t) ⟨[], _, _, rfl, by simp, ?_⟩)⟩
      · refine (writeType_of_pass free payload fits rfl (TypeWords.of_shape i t) ?_).trans ?_
        · rw [read]
          exact ranges.passes alone
        · rw [read, TypeWords.of_type]
          rfl
      · exact fun checked => checked.2 j o other held same

end

section
/-! The four metrological writes past the protection, and what makes the part READY (R8, R10, R11, R115 to R117). -/

namespace Sys2Proof.Machine

/-! ## Readiness -/

/-- R11: the tables that make the part READY. -/
theorem Calibration.ready_iff (c : Calibration) :
    c.ready = true ↔
      (∃ g, c.geometry = some g ∧ ∀ ch : Fin 8, ch.val < 2 * g.zones.length → c.channels[ch] ≠ none) ∧
        c.curve ≠ none ∧ c.origin ≠ .default := by
  have valid {g : GeometryRecord} (held : c.geometry = some g) : c.channelsValid = true ↔
      ∀ ch : Fin 8, ch.val < 2 * g.zones.length → c.channels[ch] ≠ none := by
    unfold Calibration.channelsValid
    rw [List.all_eq_true]
    simp only [Bool.and_eq_true, Option.isSome_iff_ne_none]
    constructor
    · intro zones ch low
      have used : channelZone ch ∈ c.zonesInUse := by
        rw [Calibration.zonesInUse_of_geometry held]
        simp only [channelZone]
        omega
      obtain ⟨north, south⟩ := zones _ used
      have same := channelOf_zone_rail ch
      cases rail : channelRail ch with
      | north => rw [rail] at same; simpa only [same] using north
      | south => rw [rail] at same; simpa only [same] using south
    · intro channels z used
      rw [Calibration.zonesInUse_of_geometry held] at used
      exact ⟨channels (channelOf z .north) (by simp only [channelOf]; omega),
        channels (channelOf z .south) (by simp only [channelOf]; omega)⟩
  unfold Calibration.ready
  simp only [Bool.and_eq_true, Option.isSome_iff_ne_none, bne_iff_ne]
  cases held : c.geometry with
  | none => simp
  | some g =>
    rw [valid held]
    simp [and_assoc]

/-! ## The payloads -/

/-- A payload that is no Geometry Record (R181). -/
theorem parseGeometry_eq_none {p : List Byte} (misshapen : ∀ z : Nat, p.length ≠ 11 + 4 * z ∨ natAt p 0 1 ≠ z) :
    parseGeometry p = none := by
  unfold parseGeometry
  dsimp only
  refine if_neg fun ⟨length, count⟩ => ?_
  rcases misshapen ((p.length - 11) / 4) with other | other
  · exact other length
  · exact other count

theorem firstFails_cons_of_pass {p : Prop} {k n : Nat} {l : List (Prop × Nat)} (passes : p) (fails : FirstFails l n) :
    FirstFails ((p, k) :: l) n := by
  obtain ⟨before, q, after, rfl, passed, fail⟩ := fails
  exact ⟨(p, k) :: before, q, after, rfl, List.forall_mem_cons.2 ⟨passes, passed⟩, fail⟩

/-- The checks of a Channel Record whose words fit (R115). -/
theorem channelFault_eq_some {c : ChannelRecord} (zeroCal : -8388608 ≤ c.zeroCal ∧ c.zeroCal ≤ 8388607)
    (gain : c.gain < 4294967296) {f : Nat}
    (fails : FirstFails
      [(1 ≤ c.gain, 2), (c.zeroRange ≤ 1048575, 3), (1 ≤ c.threshold ∧ c.threshold ≤ 8388607, 4)] f) :
    channelFault c = some f := by
  unfold channelFault
  rw [firstFailing_some_iff]
  have low : c.gain ≤ 4294967295 := Nat.le_of_lt_succ gain
  simp only [conditions, List.map_cons, List.map_nil, inRange_iff, Nat.zero_le, true_and, Bool.and_eq_true,
    decide_eq_true_eq, low, and_true]
  exact firstFails_cons_of_pass zeroCal fails

/-! ## The writes -/

section
variable {s : State} {r : Request}

theorem writeGeometry_of_record (admitted : s.protection = none) {g : GeometryRecord}
    (payload : r.payload = geometryBytes g) (fits : g.Fits) :
    writeGeometry r s =
      match geometryFault s.cal.limits.minZones g with
      | some n => answerBadValue r n s
      | none => acceptWrite r (fun c => { c with geometry := some g }) s := by
  unfold writeGeometry
  (rw [guarded_of_admitted admitted, payload, parseGeometry_geometryBytes fits]) <;> rfl

theorem writeSpeedCurve_of_curve (admitted : s.protection = none) {k : Vector CurvePoint 8}
    (payload : r.payload = curveBytes k) (fits : ∀ i : Fin 8, k[i].v < 65536 ∧ k[i].k < 65536) :
    writeSpeedCurve r s =
      match curveFault k with
      | some n => answerBadValue r n s
      | none => acceptWrite r (fun c => { c with curve := some k }) s := by
  have parsed := parseCurve_curveBytes fits []
  rw [List.append_nil] at parsed
  unfold writeSpeedCurve
  (rw [guarded_of_admitted admitted, payload, if_neg (by simp [curveBytes_length]), parsed]) <;> rfl

theorem writeLimits_of_limits (admitted : s.protection = none) {l : Limits} (payload : r.payload = limitsBytes l)
    (fits : l.Fits) :
    writeLimits r s =
      match limitsFault s.cal.maxMinZones l with
      | some n => answerBadValue r n s
      | none => acceptWrite r (fun c => { c with limits := l, origin := .written }) s := by
  have parsed := parseLimits_limitsBytes fits []
  rw [List.append_nil] at parsed
  unfold writeLimits
  (rw [guarded_of_admitted admitted, payload, if_neg (by simp [limitsBytes_length]), parsed]) <;> rfl

theorem writeChannel_eq (admitted : s.protection = none) {ch : Fin 8} {p : List Byte}
    (payload : r.payload = natBytes 1 ch ++ p) :
    writeChannel r s =
      if p.length ≠ 13 then answer r .malformed [] s
      else
        match channelFault (parseChannel p) with
        | some n => answerBadValue r n s
        | none =>
          acceptWrite r (fun c => { c with channels := c.channels.set ch (some (parseChannel p)) })
            (reloadChannel ch (parseChannel p) s) := by
  have first : natAt r.payload 0 1 = ch := by rw [payload, natAt_front_of_lt _ (by omega)]
  have carries : r.payload.isEmpty = false := by
    rw [payload]
    rfl
  have length : r.payload.length ≠ 14 ↔ p.length ≠ 13 := by
    rw [payload, List.length_append, natBytes_length]
    omega
  have behind : r.payload.drop 1 = p := by
    rw [payload]
    rfl
  unfold writeChannel
  rw [guarded_of_admitted admitted]
  (simp only [carries, first, ch.isLt, dif_pos, Bool.false_eq_true, if_false, length, behind]) <;> rfl

theorem writeChannel_of_record (admitted : s.protection = none) {ch : Fin 8} {c : ChannelRecord}
    (payload : r.payload = natBytes 1 ch ++ channelBytes c) (zeroCal : -8388608 ≤ c.zeroCal ∧ c.zeroCal ≤ 8388607)
    (zeroRange : c.zeroRange < 16777216) (gain : c.gain < 4294967296) (threshold : c.threshold < 16777216) :
    writeChannel r s =
      match channelFault c with
      | some n => answerBadValue r n s
      | none =>
        acceptWrite r (fun k => { k with channels := k.channels.set ch (some c) }) (reloadChannel ch c s) := by
  have parsed := parseChannel_channelBytes zeroCal gain zeroRange threshold []
  rw [List.append_nil] at parsed
  rw [writeChannel_eq admitted payload, if_neg (by simp [channelBytes_length]), parsed]

end

end Sys2Proof.Machine

open Sys2Proof Sys2Proof.Machine

/-- Settles O45: each payload read back as the table it was written from, and its checks. -/
theorem metrologicalWritesReplaceTheirTable : Obligations.MetrologicalWritesReplaceTheirTable := by
  refine ⟨Calibration.ready_iff, fun s r rest can enabled idle committing => ?_⟩
  have admitted : State.protection { s with requests := rest } = none :=
    (protection_eq_none _).2 ⟨enabled, (busyTrain_eq_false_iff s).2 idle, committing⟩
  have runs {mine : Byte → Bool} (own : mine r.code = true) {f : Request → State → State} {t : State}
      (eq : f r { s with requests := rest } = t) :
      (.next (onHead mine f s) : Host.Outcome State Fault Refusal) = .next (boundary t) :=
    congrArg Host.Outcome.next ((can.onHead own).trans (congrArg boundary eq))
  have past {f : State → State} : guarded r f { s with requests := rest } = f { s with requests := rest } :=
    guarded_of_admitted admitted
  refine ⟨fun code => ?_, fun code => ?_, fun code => ?_, fun code => ?_⟩
  · refine ⟨fun misshapen => runs (by simp [code]) ?_, fun g payload zones fScan dW dE cE mas spans =>
      ⟨fun n fault => runs (by simp [code]) ?_, fun pass => runs (by simp [code]) ?_⟩⟩
    · refine past.trans ?_
      rw [parseGeometry_eq_none misshapen]
      rfl
    all_goals
      refine (writeGeometry_of_record admitted payload ⟨zones, fScan, dW, dE, cE, mas, spans⟩).trans ?_
    · simp only [fault]
      rfl
    · simp only [pass]
      rfl
  · refine ⟨fun empty => runs (by simp [code]) (past.trans (if_pos (by simp [empty]))),
      fun i p payload high low => runs (by simp [code]) (past.trans ?_), fun ch p payload =>
        ⟨fun length => runs (by simp [code]) ((writeChannel_eq admitted payload).trans (if_pos length)), ?_⟩⟩
    · have first : natAt r.payload 0 1 = i := by rw [payload, natAt_front_of_lt _ low]
      have carries : r.payload.isEmpty = false := by
        rw [payload]
        rfl
      exact (if_neg (Bool.eq_false_iff.1 carries)).trans (dif_neg (by omega))
    · rintro c rfl z0 z1 zeroRange gain threshold
      have written := writeChannel_of_record admitted payload ⟨z0, z1⟩ zeroRange gain threshold
      refine ⟨fun f fails => runs (by simp [code]) (written.trans ?_), fun gain1 range t1 t2 =>
        ⟨reloadChannel ch c s, runs (by simp [code]) (written.trans ?_), rfl, reloadChannel_windows ch c s, fun i => ?_⟩⟩
      · simp only [channelFault_eq_some ⟨z0, z1⟩ gain fails]
        rfl
      · have pass : channelFault c = none :=
          (channelFault_eq_none_iff c).2 ⟨⟨z0, z1⟩, ⟨gain1, Nat.le_of_lt_succ gain⟩, range, t1, t2⟩
        simp only [pass]
        rfl
      · rw [reloadChannel_channel, channelOf_zone_rail]
        rfl
  · refine ⟨fun length => runs (by simp [code]) (past.trans (if_pos length)), fun k payload fits =>
      ⟨fun n fault => runs (by simp [code]) ?_, fun pass => runs (by simp [code]) ?_⟩⟩
    all_goals refine (writeSpeedCurve_of_curve admitted payload fits).trans ?_
    · simp only [fault]
      rfl
    · simp only [pass]
      rfl
  · refine ⟨fun length => runs (by simp [code]) (past.trans (if_pos length)), fun l payload
      ⟨trim, nMin, minZones, spread, tol, nOn, nOff, vMin, vMax, accel, lr, ends⟩ => ⟨fun n fault => runs (by simp [code]) ?_, fun pass => runs (by simp [code]) ?_⟩⟩
    all_goals
      refine (writeLimits_of_limits admitted payload
        ⟨trim, nMin, minZones, spread, tol, nOn, nOff, vMin, vMax, accel, lr, ends⟩).trans ?_
    · simp only [fault]
      rfl
    · simp only [pass]
      rfl

end

section
/-! Baselines, presence runs and predicted windows (R84 to R91). -/

namespace Sys2Proof.Machine

/-! ## Baselines (R85) -/

/-- A passing block of mean d moves a baseline by an eighth of the difference (R85). -/
def baselineStep (d x : Int) : Int := x + (d - x + 4) / 8

theorem baselineStep_rests {d x : Int} (low : d - 3 ≤ x) (high : x ≤ d + 4) : baselineStep d x = x := by
  unfold baselineStep
  omega

/-- Outside its resting band the baseline comes nearer to it. -/
theorem baselineStep_nearer {d x : Int} (outside : ¬(d - 3 ≤ x ∧ x ≤ d + 4)) :
    (d - baselineStep d x + 4).natAbs < (d - x + 4).natAbs := by
  unfold baselineStep
  omega

theorem baselineStep_reaches (d b : Int) :
    ∃ n : Nat, d - 3 ≤ (baselineStep d)^[n] b ∧ (baselineStep d)^[n] b ≤ d + 4 := by
  induction far : (d - b + 4).natAbs using Nat.strong_induction_on generalizing b with
  | _ m ih =>
    by_cases inside : d - 3 ≤ b ∧ b ≤ d + 4
    · exact ⟨0, inside⟩
    · obtain ⟨n, reached⟩ := ih _ (far ▸ baselineStep_nearer inside) (baselineStep d b) rfl
      exact ⟨n + 1, by simpa only [Function.iterate_succ_apply] using reached⟩

theorem baselineStep_stays {d b : Int} {n : Nat} (low : d - 3 ≤ (baselineStep d)^[n] b)
    (high : (baselineStep d)^[n] b ≤ d + 4) {m : Nat} (later : n ≤ m) :
    (baselineStep d)^[m] b = (baselineStep d)^[n] b := by
  obtain ⟨k, rfl⟩ := Nat.exists_eq_add_of_le' later
  rw [Function.iterate_add_apply]
  exact Function.iterate_fixed (baselineStep_rests low high) k

/-! ## Presence runs (R86 to R88) -/

/-- The channel n samples into a run that began at t. -/
def Channel.running (n : Nat) (t : Scan) (c : Channel) : Channel :=
  { c with
    run :=
      match n with
      | 0 => none
      | n + 1 => some (n + 1, t) }

theorem Channel.running_of_pos {n : Nat} (c : Channel) (t : Scan) (some' : 1 ≤ n) :
    c.running n t = { c with run := some (n, t) } := by
  cases n with
  | zero => omega
  | succ n => rfl

theorem Channel.running_zero {c : Channel} (t : Scan) (rests : c.run = none) : c.running 0 t = c := by
  cases c
  subst rests
  rfl

theorem Channel.extendRun_running (c : Channel) (n : Nat) (t : Scan) :
    (c.running n t).extendRun (t + BitVec.ofNat 32 n) = (n + 1, t) := by
  cases n with
  | zero => exact congrArg (Prod.mk 1) (BitVec.add_zero t)
  | succ n => rfl

section
variable {nOn nOff n : Nat} {rec : ChannelRecord} {c : Channel} {t : Scan} {a : Sample}

theorem Channel.detect_of_status (fails : a.status ≠ .ok) : c.detect nOn nOff rec t a = ({ c with run := none }, none) := by
  unfold detect
  dsimp only
  split
  next ok _ => exact absurd ok fails
  next ok _ => exact absurd ok fails
  · rfl

/-- A rising sample in EMPTY (R87). -/
theorem Channel.detect_rising (empty : c.presence = .empty) (ok : a.status = .ok)
    (rises : 8 * (rec.threshold : Int) < 8 * a.value - c.baseline) :
    (c.running n t).detect nOn nOff rec (t + BitVec.ofNat 32 n) a =
      if nOn ≤ n + 1 then ({ c with presence := .occupied, run := none }, some (.on t))
      else (c.running (n + 1) t, none) := by
  unfold detect
  rw [ok, show (c.running n t).presence = .empty from empty, extendRun_running]
  refine (if_pos (c := 8 * a.value - c.baseline > 8 * (rec.threshold : Int)) rises).trans ?_
  dsimp only [running]
  rw [empty]

/-- A falling sample in OCCUPIED (R88). -/
theorem Channel.detect_falling (occupied : c.presence = .occupied) (ok : a.status = .ok)
    (falls : 8 * a.value - c.baseline < 8 * ((rec.threshold / 2 : Nat) : Int)) :
    (c.running n t).detect nOn nOff rec (t + BitVec.ofNat 32 n) a =
      if nOff ≤ n + 1 then ({ c with presence := .empty, run := none }, some (.off t))
      else (c.running (n + 1) t, none) := by
  unfold detect
  rw [ok, show (c.running n t).presence = .occupied from occupied, extendRun_running]
  refine (if_pos (c := 8 * a.value - c.baseline < 8 * ((rec.threshold / 2 : Nat) : Int)) falls).trans ?_
  dsimp only [running]
  rw [occupied]

theorem Channel.detect_not_rising (ok : a.status = .ok) (empty : c.presence = .empty)
    (low : 8 * a.value - c.baseline ≤ 8 * (rec.threshold : Int)) :
    c.detect nOn nOff rec t a = ({ c with run := none }, none) := by
  unfold detect
  rw [ok, empty]
  exact if_neg (not_lt.2 low)

theorem Channel.detect_not_falling (ok : a.status = .ok) (occupied : c.presence = .occupied)
    (high : 8 * ((rec.threshold / 2 : Nat) : Int) ≤ 8 * a.value - c.baseline) :
    c.detect nOn nOff rec t a = ({ c with run := none }, none) := by
  unfold detect
  rw [ok, occupied]
  exact if_neg (not_lt.2 high)

end

/-- Samples that all extend the run, fewer than the run needs, extend it by their number. -/
theorem Channel.running_foldl {N : Nat} {c : Channel} {t : Scan} {xs : List Sample}
    {d : Scan → Sample → Channel → Channel}
    (extends' : ∀ a ∈ xs, ∀ n, n + 1 < N → d (t + BitVec.ofNat 32 n) a (c.running n t) = c.running (n + 1) t) {k : Nat}
    (short : k + xs.length < N) :
    (xs.zipIdx k).foldl (fun c a => d (t + BitVec.ofNat 32 a.2) a.1 c) (c.running k t) =
      c.running (k + xs.length) t := by
  induction xs generalizing k with
  | nil => rfl
  | cons a xs ih =>
    obtain ⟨here, later⟩ := List.forall_mem_cons.1 extends'
    rw [List.length_cons] at short
    rw [List.zipIdx_cons, List.foldl_cons, here k (by omega), ih later (by omega), List.length_cons]
    congr 1
    omega

/-- The samples of a full run: the last is judged behind the run of those before it. -/
theorem Channel.running_full {N : Nat} {c : Channel} {t : Scan} {xs : List Sample}
    {d : Scan → Sample → Channel → Channel} (rests : c.run = none)
    (extends' : ∀ a ∈ xs, ∀ n, n + 1 < N → d (t + BitVec.ofNat 32 n) a (c.running n t) = c.running (n + 1) t)
    (some : 1 ≤ xs.length) (full : xs.length = N) :
    xs.dropLast.zipIdx.foldl (fun c a => d (t + BitVec.ofNat 32 a.2) a.1 c) c = c.running (N - 1) t := by
  have length : 0 + xs.dropLast.length = N - 1 := by rw [List.length_dropLast]; omega
  have run := running_foldl (d := d) (fun a mem => extends' a (List.mem_of_mem_dropLast mem)) (k := 0)
    (by omega : 0 + xs.dropLast.length < N)
  rw [running_zero t rests, length] at run
  exact run

/-! ## Windows (R4, R90, R91) -/

theorem t16Floor_toNat (t : T16) : (t16Floor t).toNat = t.toNat / 16 := by
  have : t.toNat / 16 < 4294967296 := by
    have := t.isLt
    omega
  simp only [t16Floor, BitVec.toNat_setWidth, BitVec.toNat_ushiftRight, Nat.shiftRight_eq_div_pow]
  exact Nat.mod_eq_of_lt this

theorem t16Ceil_toNat {t : T16} (fits : t.toNat + 15 < 68719476736) : (t16Ceil t).toNat = (t.toNat + 15) / 16 := by
  rw [t16Ceil, t16Floor_toNat, BitVec.toNat_add]
  congr 1
  exact Nat.mod_eq_of_lt fits

/-- R90 in numbers: an edge that does not wrap. -/
theorem edgeTime_toNat (tRef : T16) (dist pace : Nat)
    (fits : tRef.toNat + (2 * (dist * pace) + 2000) / 4000 < 68719476736) :
    (edgeTime tRef dist pace).toNat = tRef.toNat + (2 * (dist * pace) + 2000) / 4000 := by
  have rounded : roundHalfUp (dist * pace) 2000 = (2 * (dist * pace) + 2000) / 4000 := rfl
  have low : (2 * (dist * pace) + 2000) / 4000 < 68719476736 := by omega
  rw [edgeTime, BitVec.toNat_add, BitVec.toNat_ofNat, rounded, Nat.mod_eq_of_lt low, Nat.mod_eq_of_lt fits]

theorem t16Diff_of_le {a b : T16} (ordered : a.toNat ≤ b.toNat) (short : b.toNat - a.toNat < 2147483648) :
    t16Diff b a = ((b.toNat - a.toNat : Nat) : Int) := by
  have diff : (b - a).toNat = b.toNat - a.toNat := BitVec.toNat_sub_of_le (by simpa [BitVec.le_def] using ordered)
  have value : ((b - a).setWidth 32).toNat = b.toNat - a.toNat := by
    rw [BitVec.toNat_setWidth, diff]
    exact Nat.mod_eq_of_lt (by omega)
  rw [t16Diff, BitVec.toInt_eq_toNat_of_lt (by omega), value]

/-- R90 in numbers: the trimmed and the rounded edges of a window whose times do not wrap. -/
theorem predictedWindow_edges {tIn tOut : T16} {j generation te : Nat} (ordered : tIn.toNat ≤ tOut.toNat)
    (eighths : te ≤ 3) (fits : tOut.toNat + 16 < 68719476736) (short : tOut.toNat - tIn.toNat < 2147483648) :
    (predictedWindow j generation tIn tOut te).start.toNat =
        (tIn.toNat + (tOut.toNat - tIn.toNat) * te / 8 + 15) / 16 ∧
      (predictedWindow j generation tIn tOut te).stop.toNat =
        (tOut.toNat - (tOut.toNat - tIn.toNat) * te / 8) / 16 ∧
      (predictedWindow j generation tIn tOut te).inScan.toNat = (tIn.toNat + 8) / 16 ∧
      (predictedWindow j generation tIn tOut te).outScan.toNat = (tOut.toNat + 8) / 16 := by
  have least : (tOut.toNat - tIn.toNat) * te / 8 ≤ tOut.toNat - tIn.toNat :=
    Nat.div_le_of_le_mul (by nlinarith)
  generalize trims : (tOut.toNat - tIn.toNat) * te / 8 = trim at least
  have trimmed : (BitVec.ofInt 36 (t16Diff tOut tIn * te / 8)).toNat = trim := by
    rw [t16Diff_of_le ordered short, ← trims]
    generalize tOut.toNat - tIn.toNat = n at *
    rw [show ((n : Int) * te / 8) = ((n * te / 8 : Nat) : Int) by push_cast; rfl, BitVec.ofInt_natCast,
      BitVec.toNat_ofNat]
    exact Nat.mod_eq_of_lt (by omega)
  have start : (tIn + BitVec.ofInt 36 (t16Diff tOut tIn * te / 8)).toNat = tIn.toNat + trim := by
    rw [BitVec.toNat_add, trimmed]
    exact Nat.mod_eq_of_lt (by omega)
  have stop : (tOut - BitVec.ofInt 36 (t16Diff tOut tIn * te / 8)).toNat = tOut.toNat - trim := by
    rw [BitVec.toNat_sub_of_le (by rw [BitVec.le_def, trimmed]; omega), trimmed]
  have rounds {t : T16} (low : t.toNat + 8 < 68719476736) : (t + 8).toNat = t.toNat + 8 := by
    rw [BitVec.toNat_add]
    exact Nat.mod_eq_of_lt low
  simp only [predictedWindow]
  rw [t16Ceil_toNat (by rw [start]; omega), start, t16Floor_toNat, stop, t16Floor_toNat, rounds (by omega),
    t16Floor_toNat, rounds (by omega)]
  exact ⟨rfl, rfl, rfl, rfl⟩

theorem distIn_eq (g : GeometryRecord) (d : Direction) (z : ZoneSpan) :
    distIn g d z = if d = .eastbound then z.a else g.cE - z.b := by cases d <;> rfl

theorem distOut_eq (g : GeometryRecord) (d : Direction) (z : ZoneSpan) :
    distOut g d z = if d = .eastbound then z.b else g.cE - z.a := by cases d <;> rfl

theorem distIn_le_distOut {g : GeometryRecord} (d : Direction) {z : ZoneSpan} (ordered : z.a ≤ z.b) :
    distIn g d z ≤ distOut g d z := by
  cases d
  · exact ordered
  · exact Nat.sub_le_sub_left ordered _

end Sys2Proof.Machine

open Sys2Proof Sys2Proof.Machine

/-- Settles O26: one block step by step, and the steps of the baseline from block to block. -/
theorem baselinesFollowTheirBlocks : Obligations.BaselinesFollowTheirBlocks := by
  refine ⟨fun rec c covered a => ⟨fun unfit => if_neg ?_, fun empty ok clear => ⟨fun part => ?_, fun d last mean =>
    ⟨fun passes => ?_, fun fails => ?_⟩⟩⟩, fun b d => ?_⟩
  · rintro ⟨empty, ok, clear⟩
    rcases unfit with occupied | status | covered
    · exact nomatch empty.symm.trans occupied
    · exact status ok
    · exact nomatch clear.symm.trans covered
  · exact (if_pos ⟨empty, ok, clear⟩).trans (if_neg (show ¬64 ≤ c.blockCount + 1 by omega))
  · refine (if_pos ⟨empty, ok, clear⟩).trans ((if_pos (show 64 ≤ c.blockCount + 1 by omega)).trans ?_)
    subst mean
    exact if_pos passes
  · refine (if_pos ⟨empty, ok, clear⟩).trans ((if_pos (show 64 ≤ c.blockCount + 1 by omega)).trans ?_)
    subst mean
    exact if_neg (Nat.not_le.2 fails)
  · obtain ⟨n, low, high⟩ := baselineStep_reaches d b
    refine ⟨n, fun m later => ?_⟩
    have stays := baselineStep_stays low high later
    have still := baselineStep_stays low high (Nat.le_succ_of_le later)
    rw [← stays] at low high
    exact ⟨low, high, still.trans stays.symm⟩

/-- Settles O27: the run grows by one with each sample; the last of a full run changes the presence. -/
theorem presenceNeedsAFullRun : Obligations.PresenceNeedsAFullRun := by
  intro nOn nOff rec c t xs
  refine ⟨fun a => ⟨Channel.detect_of_status, Channel.detect_not_rising, Channel.detect_not_falling⟩,
    fun empty rests rises some => ?_, fun occupied rests falls some => ?_⟩
  · have grows : ∀ a ∈ xs, ∀ n, n + 1 < nOn →
        ((c.running n t).detect nOn nOff rec (t + BitVec.ofNat 32 n) a).1 = c.running (n + 1) t := by
      intro a mem n short
      rw [Channel.detect_rising empty (rises a mem).1 (rises a mem).2, if_neg (by omega)]
    refine ⟨fun short => ?_, fun full a last => ?_⟩
    · have run := Channel.running_foldl (d := fun t a c => (c.detect nOn nOff rec t a).1) grows (k := 0) (by omega)
      rw [Channel.running_zero t rests, Nat.zero_add] at run
      exact run.trans (c.running_of_pos t some)
    · have mem := List.mem_of_getLast? last
      rw [Channel.running_full (d := fun t a c => (c.detect nOn nOff rec t a).1) rests grows some full,
        Channel.detect_rising empty (rises a mem).1 (rises a mem).2, if_pos (by omega)]
  · have grows : ∀ a ∈ xs, ∀ n, n + 1 < nOff →
        ((c.running n t).detect nOn nOff rec (t + BitVec.ofNat 32 n) a).1 = c.running (n + 1) t := by
      intro a mem n short
      rw [Channel.detect_falling occupied (falls a mem).1 (falls a mem).2, if_neg (by omega)]
    refine ⟨fun short => ?_, fun full a last => ?_⟩
    · have run := Channel.running_foldl (d := fun t a c => (c.detect nOn nOff rec t a).1) grows (k := 0) (by omega)
      rw [Channel.running_zero t rests, Nat.zero_add] at run
      exact run.trans (c.running_of_pos t some)
    · have mem := List.mem_of_getLast? last
      rw [Channel.running_full (d := fun t a c => (c.detect nOn nOff rec t a).1) rests grows some full,
        Channel.detect_falling occupied (falls a mem).1 (falls a mem).2, if_pos (by omega)]

/-- Settles O28: the edges in numbers, and the conditions of R91 in their order. -/
theorem windowsAreThoseOfTheTable : Obligations.WindowsAreThoseOfTheTable := by
  refine ⟨?_, fun time nMin tol list w => ⟨fun begun => if_pos (decide_eq_true begun), fun ahead => ?_⟩⟩
  · intro g d z j generation te pace tRef tIn tOut trim w ordered inside eighths hIn hOut hTrim fits short hw
    rw [← distIn_eq] at hIn
    rw [← distOut_eq] at hOut
    have dist := Nat.mul_le_mul_right pace (distIn_le_distOut (g := g) d ordered)
    have edges : tIn ≤ tOut := by omega
    have inEdge : (edgeTime tRef (distIn g d z) pace).toNat = tIn := by
      rw [edgeTime_toNat tRef (distIn g d z) pace (by omega), hIn]
    have outEdge : (edgeTime tRef (distOut g d z) pace).toNat = tOut := by
      rw [edgeTime_toNat tRef (distOut g d z) pace (by omega), hOut]
    obtain ⟨start, stop, inScan, outScan⟩ := predictedWindow_edges (j := j) (generation := generation)
      (tIn := edgeTime tRef (distIn g d z) pace) (tOut := edgeTime tRef (distOut g d z) pace) (by omega) eighths
      (by omega) (by omega)
    rw [inEdge, outEdge, ← hTrim] at start stop
    rw [inEdge] at inScan
    rw [outEdge] at outScan
    rw [hw]
    exact ⟨rfl, rfl, start, stop, inScan, outScan, rfl, rfl, rfl, rfl⟩
  · have notBegun : ¬atOrBefore w.start time = true := by
      rw [atOrBefore, decide_eq_true_iff]
      exact not_le.2 ahead
    refine ⟨fun few => (if_neg notBegun).trans (if_pos few), fun enough => ?_⟩
    have long : ¬scanDiff w.stop w.start + 1 < (nMin : Int) := not_lt.2 enough
    refine ⟨fun full => (if_neg notBegun).trans ((if_neg long).trans (if_pos full)), fun room => ?_⟩
    have judged : predictionCondition time nMin tol list w =
        match list.getLast? with
        | some last => if atOrBefore w.start (last.outScan + BitVec.ofNat 32 tol) then some .shared else none
        | none => none := (if_neg notBegun).trans ((if_neg long).trans (if_neg (Nat.not_le.2 room)))
    refine ⟨fun empty => ?_, fun front last split => ⟨fun shared => ?_, fun apart => ?_⟩⟩
    · refine judged.trans ?_
      rw [empty]
      rfl
    all_goals
      refine judged.trans ?_
      rw [split, List.getLast?_concat]
    · exact if_pos (decide_eq_true shared)
    · refine if_neg ?_
      rw [atOrBefore, decide_eq_true_iff]
      exact not_le.2 apart

end

section
/-! One scan at a Zone Unit: its channels, its phantoms, and each of its windows through the stages of R83; the wheel mass of a
rail (R92 to R98, R102 to R104). -/

namespace Sys2Proof.Machine

/-! ## Scan times -/

theorem atOrBefore_iff (a b : Scan) : atOrBefore a b = true ↔ 0 ≤ (b - a).toInt := decide_eq_true_iff

theorem before_iff (a b : Scan) : before a b = true ↔ 0 < (b - a).toInt := decide_eq_true_iff

/-! ## Estimates -/

/-- roundHalfAway in signs and magnitudes. -/
theorem roundHalfAway_eq (a : Int) {b : Nat} (some : 1 ≤ b) :
    roundHalfAway a b = a.sign * ((2 * a.natAbs + b) / (2 * b) : Nat) := by
  unfold roundHalfAway roundHalfUp
  rcases lt_trichotomy a 0 with neg | rfl | pos
  · rw [if_pos neg, Int.sign_eq_neg_one_of_neg neg]
    ring
  · have : b / (2 * b) = 0 := Nat.div_eq_of_lt (by omega)
    simp [this]
  · rw [if_neg (by omega), Int.sign_eq_one_of_pos pos]
    ring

/-- An estimate reads the window's name and gap mark, and the channel's baseline and zero fault, alone. -/
theorem decideEstimate_congr {w v : Window} {c d : Channel} (ordinal : w.ordinal = v.ordinal)
    (generation : w.generation = v.generation) (gap : w.gap = v.gap) (baseline : c.baseline = d.baseline)
    (zeroFault : c.zeroFault = d.zeroFault) (ch : Fin 8) (rec : Option ChannelRecord) (x : RailWindow) :
    decideEstimate w ch c rec x = decideEstimate v ch d rec x := by
  unfold decideEstimate
  rw [ordinal, generation, gap, baseline, zeroFault]

/-- The mass by which a rail with a record is decided (R102, R103). -/
def RailWindow.mass (x : RailWindow) (c : Channel) (rec : ChannelRecord) : Int :=
  wheelMass x.sum x.count (x.closeBase.getD c.baseline) rec.gain

section
variable (w : Window) (ch : Fin 8) (c : Channel) (rec : ChannelRecord) (x : RailWindow)

theorem decideEstimate_of_record :
    decideEstimate w ch c (some rec) x =
      { ordinal := w.ordinal
        generation := w.generation
        channel := ch
        condition := railCondition w.gap x (x.mass c rec)
        mass := if railCondition w.gap x (x.mass c rec) = .valid then some (x.mass c rec).toNat else none
        belowZero := railCondition w.gap x (x.mass c rec) == .saturated && decide (x.mass c rec < 0)
        aboveRange := railCondition w.gap x (x.mass c rec) == .saturated && decide (65535 < x.mass c rec)
        zeroSuspect :=
          (railCondition w.gap x (x.mass c rec) == .saturated || railCondition w.gap x (x.mass c rec) == .valid) &&
            c.zeroFault } := rfl

/-- A rail with a mass is SATURATED beyond 0..65,535 and VALID within (R97). -/
theorem railCondition_of_seen {gap : Bool} (clear : gap = false) (sound : x.fault = false) (on : x.onSeen = true)
    (off : x.offSeen = true) (m : Int) :
    railCondition gap x m = if m < 0 ∨ 65535 < m then .saturated else .valid := by
  simp [railCondition, clear, sound, on, off]

end

/-! ## Decisions at a window (R97) -/

section
variable (k : ZoneTables) (u : ZoneUnit) (due : RailWindow → Bool) (w : Window)

/-- A rail is decided now. -/
def Window.settles (r : Rail) : Bool := (w.rail r).decided.isNone && due (w.rail r)

/-- What a rail is decided with. -/
def Window.estimate (r : Rail) : Handed :=
  decideEstimate w (channelOf k.index r) (u.channel r) (k.record r) (w.rail r)

/-- A rail after the decisions. -/
def Window.railAfter (r : Rail) : RailWindow :=
  if w.settles due r then { w.rail r with decided := some (w.estimate k u r).condition } else w.rail r

theorem Window.decideRail_eq (r : Rail) :
    w.decideRail k u due r =
      (w.setRail r (w.railAfter k u due r), if w.settles due r then [w.estimate k u r] else []) := by
  unfold decideRail railAfter
  cases settles : w.settles due r
  · have same : w.setRail r (w.rail r) = w := by cases r <;> rfl
    simp only [Window.settles] at settles
    simp [settles, same]
  · simp only [Window.settles] at settles
    simp only [settles, if_true]
    rfl

/-- Both rails at once: a decision on one leaves the other as it stands. -/
theorem Window.decide_eq :
    w.decide k u due =
      ({ w with
          state :=
            if (w.railAfter k u due .north).decided.isSome = true ∧ (w.railAfter k u due .south).decided.isSome = true
            then .done else w.state
          north := w.railAfter k u due .north
          south := w.railAfter k u due .south },
        (([.north, .south] : List Rail).filter (w.settles due)).map (w.estimate k u)) := by
  unfold Window.decide
  rw [decideRail_eq k u due w .north]
  dsimp only
  rw [decideRail_eq k u due (w.setRail .north (w.railAfter k u due .north)) .south]
  have after : (w.setRail .north (w.railAfter k u due .north)).railAfter k u due .south = w.railAfter k u due .south := rfl
  have settles : (w.setRail .north (w.railAfter k u due .north)).settles due .south = w.settles due .south := rfl
  have estimate : (w.setRail .north (w.railAfter k u due .north)).estimate k u .south = w.estimate k u .south := rfl
  rw [after, settles, estimate]
  refine Prod.ext ?_ ?_
  · dsimp only [bothDecided, setRail]
    simp only [Bool.and_eq_true]
    split
    · rfl
    · rfl
  · cases north : w.settles due .north <;> cases south : w.settles due .south <;> simp [north, south]

end

/-! ## A window through stages 1 to 5 (R92 to R96) -/

section
variable (missing : Option (Scan × Scan)) (t : Scan) (tol : Nat) (ev : Rail → Option PresenceEvent) (base : Rail → Int)
  (a : Rail → Sample) (w : Window)

/-- The window is marked by a gap (R93). -/
def Window.gapAfter : Bool :=
  w.gap || match missing with
    | some (m0, m1) => w.touches m0 m1
    | none => false

/-- The window is OPEN before stage 3, or has just closed (R92). -/
def Window.opens : Bool := w.state == .opened || (w.state == .pending && atOrBefore w.start t)

/-- The window closes (R92). -/
def Window.closes : Bool := w.opens t && before w.stop t

/-- The window takes the samples of the scan (R92). -/
def Window.takes : Bool := w.opens t && !w.closes t && within w.start w.stop t

/-- The rail has its ON seen after stage 4 (R94). -/
def Window.seesOn (r : Rail) : Bool :=
  (w.rail r).onSeen || ((w.rail r).decided.isNone && match ev r with
    | some (.on e) => w.inOnBand tol e
    | _ => false)

/-- The rail has its OFF seen after stage 4 (R96). -/
def Window.seesOff (r : Rail) : Bool :=
  (w.rail r).offSeen || ((w.rail r).decided.isNone && match ev r with
    | some (.off e) => w.inOffBand tol e
    | _ => false)

/-- The rail after stage 4. -/
def Window.railAdvanced (r : Rail) : RailWindow :=
  { sum := (w.rail r).sum + (if w.takes t = true ∧ (a r).status = .ok then (a r).value else 0)
    count := (w.rail r).count + (if w.takes t = true ∧ (a r).status = .ok then 1 else 0)
    fault := (w.rail r).fault || (w.takes t && (a r).status != .ok)
    onSeen := w.seesOn tol ev r
    offSeen := w.seesOff tol ev r
    closeBase := if w.closes t then some (base r) else (w.rail r).closeBase
    decided := (w.rail r).decided }

/-- The window after stage 4. -/
def Window.advanced : Window :=
  { w with
    gap := w.gapAfter missing
    state := if w.closes t then .awaitingOff else if w.opens t then .opened else w.state
    north := w.railAdvanced t tol ev base a .north
    south := w.railAdvanced t tol ev base a .south }

/-- Stage 1 at a window. -/
def Window.gapMarked : Window :=
  match missing with
  | some (m0, m1) => if w.touches m0 m1 then { w with gap := true } else w
  | none => w

theorem Window.gapMarked_eq : w.gapMarked missing = { w with gap := w.gapAfter missing } := by
  unfold gapMarked gapAfter
  cases missing with
  | none => simp
  | some m =>
    dsimp only
    cases w.touches m.1 m.2 <;> simp

/-- Stage 3 at a window. -/
def Window.sampled : Window :=
  if w.state = .opened ∧ within w.start w.stop t then
    { w with north := w.north.take (a .north), south := w.south.take (a .south) }
  else w

theorem RailWindow.take_eq (x : RailWindow) (b : Sample) :
    x.take b =
      { x with
        sum := x.sum + (if b.status = .ok then b.value else 0)
        count := x.count + (if b.status = .ok then 1 else 0)
        fault := x.fault || b.status != .ok } := by
  unfold RailWindow.take
  cases b.status <;> simp

/-- Stage 2 at a window. -/
theorem Window.closeAt_openAt :
    (w.openAt t).closeAt t (base .north) (base .south) =
      { w with
        state := if w.closes t then .awaitingOff else if w.opens t then .opened else w.state
        north := { w.north with closeBase := if w.closes t then some (base .north) else w.north.closeBase }
        south := { w.south with closeBase := if w.closes t then some (base .south) else w.south.closeBase } } := by
  have opened : w.openAt t = { w with state := if w.opens t then .opened else w.state } := by
    unfold openAt opens
    cases state : w.state <;> cases atOrBefore w.start t <;> simp <;> rw [← state]
  have state : (w.openAt t).state = .opened ↔ w.opens t = true := by
    rw [opened]
    unfold opens
    cases state : w.state <;> cases atOrBefore w.start t <;> simp
  unfold closeAt
  simp only [state]
  cases opens : w.opens t
  · simp [opened, opens, closes]
  · cases passed : before w.stop t
    · simp [opened, opens, closes, passed]
    · simp [opened, opens, closes, passed]

/-- Stages 2 and 3 at a window. -/
theorem Window.sampled_progressed :
    ((w.openAt t).closeAt t (base .north) (base .south)).sampled t a =
      { w with
        state := if w.closes t then .awaitingOff else if w.opens t then .opened else w.state
        north := { w.railAdvanced t tol ev base a .north with onSeen := w.north.onSeen, offSeen := w.north.offSeen }
        south := { w.railAdvanced t tol ev base a .south with onSeen := w.south.onSeen, offSeen := w.south.offSeen } } := by
  have takes : (((w.openAt t).closeAt t (base .north) (base .south)).state = .opened ∧
      within w.start w.stop t = true) ↔ w.takes t = true := by
    rw [closeAt_openAt]
    unfold Window.takes
    dsimp only
    cases closes : w.closes t
    · cases opens : w.opens t
      · have : w.state ≠ .opened := by
          intro eq
          rw [Window.opens, eq] at opens
          exact nomatch opens
        simp [this]
      · simp
    · simp
  have span : ((w.openAt t).closeAt t (base .north) (base .south)).start = w.start ∧
      ((w.openAt t).closeAt t (base .north) (base .south)).stop = w.stop := by
    rw [closeAt_openAt]
    exact ⟨rfl, rfl⟩
  unfold sampled
  simp only [span.1, span.2, takes]
  rw [closeAt_openAt]
  unfold railAdvanced
  cases takes : w.takes t
  · simp [rail]
  · simp [rail, RailWindow.take_eq]

/-- An event, if any, offered to a window (R94, R96). -/
def Window.offered (r : Rail) : Window :=
  match ev r with
  | some e => w.offer tol r e
  | none => w

theorem Window.offered_eq (r : Rail) :
    w.offered tol ev r = w.setRail r { w.rail r with onSeen := w.seesOn tol ev r, offSeen := w.seesOff tol ev r } := by
  have same : w = w.setRail r { w.rail r with onSeen := (w.rail r).onSeen, offSeen := (w.rail r).offSeen } := by
    cases r <;> rfl
  unfold offered seesOn seesOff
  cases event : ev r with
  | none => simpa using same
  | some e =>
    dsimp only
    unfold offer
    cases decided : (w.rail r).decided.isSome
    · have undecided : (w.rail r).decided.isNone = true := by rw [← Option.not_isSome, decided]; rfl
      cases e with
      | on e =>
        cases seen : w.inOnBand tol e
        · simpa [undecided, seen] using same
        · simp [undecided, seen]
      | off e =>
        cases seen : w.inOffBand tol e
        · simpa [undecided, seen] using same
        · simp [undecided, seen]
    · have decided' : (w.rail r).decided.isNone = false := by rw [← Option.not_isSome, decided]; rfl
      simpa [decided'] using same

/-- Stages 1 to 4 at a window. -/
theorem Window.advanced_eq :
    (((((w.gapMarked missing).openAt t).closeAt t (base .north) (base .south)).sampled t a).offered tol ev .north).offered
      tol ev .south = w.advanced missing t tol ev base a := by
  rw [sampled_progressed t tol ev base a (w.gapMarked missing), gapMarked_eq]
  rw [offered_eq tol ev _ .south, offered_eq tol ev _ .north]
  rfl

end

/-! ## The unit through a scan -/

theorem Channel.detect_keeps (nOn nOff : Nat) (rec : ChannelRecord) (t : Scan) (a : Sample) (c : Channel) :
    (c.detect nOn nOff rec t a).1.baseline = c.baseline ∧ (c.detect nOn nOff rec t a).1.zeroFault = c.zeroFault := by
  unfold detect
  dsimp only
  split
  · split
    · split <;> exact ⟨rfl, rfl⟩
    · exact ⟨rfl, rfl⟩
  · split
    · split <;> exact ⟨rfl, rfl⟩
    · exact ⟨rfl, rfl⟩
  · exact ⟨rfl, rfl⟩

section
variable (k : ZoneTables) (t : Scan) (missing : Option (Scan × Scan)) (a : Rail → Sample) (u : ZoneUnit)

/-- An active channel before stage 4: a gap empties its partial block and presence run (R93). -/
def Channel.cut (c : Channel) : Channel := if missing = none then c else c.dropPartial

theorem ZoneUnit.filled_channel (r : Rail) :
    (u.filled k t missing (a .north) (a .south)).channel r =
      if k.record r = none then u.channel r else (u.channel r).cut missing := by
  unfold filled gapped
  rw [accumulate_channel, progress_channel]
  cases missing with
  | none => simp [Channel.cut]
  | some m => simpa [Channel.cut] using applyGap_channel u k r m.1 m.2

/-- The presence event of a rail (R87, R88); without a record there is none (R82). -/
theorem ZoneUnit.event_of_no_record {r : Rail} (absent : k.record r = none) :
    u.event k t missing (a .north) (a .south) r = none := by
  cases r
  · exact congrArg Prod.snd (detect_of_no_record _ k t .north absent _)
  · exact congrArg Prod.snd (detect_of_no_record _ k t .south absent _)

theorem ZoneUnit.event_of_record {r : Rail} {rec : ChannelRecord} (held : k.record r = some rec) :
    u.event k t missing (a .north) (a .south) r =
      (((u.channel r).cut missing).detect k.nOn k.nOff rec t (a r)).2 := by
  have channel := u.filled_channel k t missing a r
  rw [held, if_neg (by simp)] at channel
  cases r
  · rw [← channel]
    exact congrArg Prod.snd (detect_of_record _ k t .north held _)
  · rw [← channel, ← detect_channel_of_ne _ k t .north .south (by decide) (a .north)]
    exact congrArg Prod.snd (detect_of_record _ k t .south held _)

/-- A channel behind stage 4. -/
theorem ZoneUnit.sensed_channel_of_record {r : Rail} {rec : ChannelRecord} (held : k.record r = some rec) :
    (u.sensed k t missing (a .north) (a .south)).channel r =
      (((u.channel r).cut missing).detect k.nOn k.nOff rec t (a r)).1 := by
  have channel := u.filled_channel k t missing a r
  rw [held, if_neg (by simp)] at channel
  cases r
  · rw [sensed, detect_channel_of_ne _ k t .south .north (by decide), detect_of_record _ k t .north held,
      setChannel_channel, if_pos rfl, channel]
  · rw [sensed, detect_of_record _ k t .south held, setChannel_channel, if_pos rfl,
      detect_channel_of_ne _ k t .north .south (by decide), channel]

theorem ZoneUnit.sensed_channel_of_no_record {r : Rail} (absent : k.record r = none) :
    (u.sensed k t missing (a .north) (a .south)).channel r = u.channel r := by
  have channel := u.filled_channel k t missing a r
  rw [absent, if_pos rfl] at channel
  cases r
  · rw [sensed, detect_channel_of_ne _ k t .south .north (by decide), detect_of_no_record _ k t .north absent, channel]
  · rw [sensed, detect_of_no_record _ k t .south absent, detect_channel_of_ne _ k t .north .south (by decide), channel]

/-- Stages 1 to 4 keep what estimates read of a channel. -/
theorem ZoneUnit.sensed_channel_keeps (r : Rail) :
    ((u.sensed k t missing (a .north) (a .south)).channel r).baseline = (u.channel r).baseline ∧
      ((u.sensed k t missing (a .north) (a .south)).channel r).zeroFault = (u.channel r).zeroFault := by
  have cut : ((u.channel r).cut missing).baseline = (u.channel r).baseline ∧
      ((u.channel r).cut missing).zeroFault = (u.channel r).zeroFault := by
    unfold Channel.cut
    split <;> exact ⟨rfl, rfl⟩
  cases held : k.record r with
  | none =>
    rw [sensed_channel_of_no_record k t missing a u held]
    exact ⟨rfl, rfl⟩
  | some rec =>
    rw [sensed_channel_of_record k t missing a u held]
    obtain ⟨baseline, zeroFault⟩ := Channel.detect_keeps k.nOn k.nOff rec t (a r) ((u.channel r).cut missing)
    exact ⟨baseline.trans cut.1, zeroFault.trans cut.2⟩

/-- A window of the list after stage 4. -/
def ZoneUnit.advance (w : Window) : Window :=
  w.advanced missing t k.tol (u.event k t missing (a .north) (a .south)) (fun r => (u.channel r).baseline) a

theorem ZoneUnit.gapped_baseline (r : Rail) : ((u.gapped k missing).channel r).baseline = (u.channel r).baseline := by
  cases missing with
  | none => rfl
  | some m =>
    refine (congrArg Channel.baseline (applyGap_channel u k r m.1 m.2)).trans ?_
    split <;> rfl

theorem ZoneUnit.sensed_windows :
    (u.sensed k t missing (a .north) (a .south)).windows =
      u.windows.map fun w =>
        (((w.gapMarked missing).openAt t).closeAt t (u.channel .north).baseline (u.channel .south).baseline).sampled t a := by
  have marked : (u.gapped k missing).windows = u.windows.map (Window.gapMarked missing) := by
    cases missing with
    | none => exact (List.map_id u.windows).symm
    | some m =>
      unfold gapped applyGap
      rw [forActive_windows]
      rfl
  unfold sensed
  rw [detect_windows, detect_windows]
  unfold filled accumulate progress
  dsimp only
  rw [marked, List.map_map, List.map_map, ← gapped_baseline k missing u .north, ← gapped_baseline k missing u .south]
  rfl

theorem ZoneUnit.offered_windows :
    (u.offered k t missing (a .north) (a .south)).windows = u.windows.map (u.advance k t missing a) := by
  have offers (v : ZoneUnit) (r : Rail) :
      (v.offer k r (u.event k t missing (a .north) (a .south) r)).windows =
        v.windows.map (Window.offered k.tol (u.event k t missing (a .north) (a .south)) · r) := by
    unfold offer Window.offered
    cases u.event k t missing (a .north) (a .south) r with
    | none => simp
    | some e => rfl
  unfold offered
  rw [offers, offers, sensed_windows, List.map_map, List.map_map]
  refine List.map_congr_left fun w _ => ?_
  exact Window.advanced_eq missing t k.tol (u.event k t missing (a .north) (a .south))
    (fun r => (u.channel r).baseline) a w

/-- A window of the list after stage 5, with the estimates it gives. -/
def ZoneUnit.confirmed (w : Window) : Window × List Handed :=
  (u.advance k t missing a w).confirm k (u.offered k t missing (a .north) (a .south))

/-- A window in the list after stage 6. -/
def ZoneUnit.stays (w : Window) : Option Window :=
  if (u.confirmed k t missing a w).1.deadlinePassed k.tol t then none else some (u.confirmed k t missing a w).1

/-- What a window gives at its deadline (R98). -/
def ZoneUnit.late (w : Window) : List Handed :=
  if (u.confirmed k t missing a w).1.deadlinePassed k.tol t then
    ((u.confirmed k t missing a w).1.decide k ((u.offered k t missing (a .north) (a .south)).confirm k).1 fun _ => true).2
  else []

theorem ZoneUnit.settled_windows :
    (u.settled k t missing (a .north) (a .south)).windows = u.windows.filterMap (u.stays k t missing a) := by
  unfold settled deadline confirm
  dsimp only
  rw [offered_windows, List.map_map, List.map_map]
  induction u.windows with
  | nil => rfl
  | cons w ws ih =>
    rw [List.map_cons, List.filter_cons, ih, List.filterMap_cons]
    cases passed : (u.confirmed k t missing a w).1.deadlinePassed k.tol t <;>
      simp only [confirmed] at passed <;> simp [stays, confirmed, passed]

theorem ZoneUnit.settled_handed :
    ((u.offered k t missing (a .north) (a .south)).confirm k).2 ++
        (((u.offered k t missing (a .north) (a .south)).confirm k).1.deadline k t).2 =
      (u.windows.flatMap fun w => (u.confirmed k t missing a w).2) ++ u.windows.flatMap (u.late k t missing a) := by
  have confirmed : ((u.offered k t missing (a .north) (a .south)).confirm k).1.windows =
      u.windows.map fun w => (u.confirmed k t missing a w).1 := by
    unfold confirm
    dsimp only
    rw [offered_windows, List.map_map, List.map_map]
    rfl
  have now : ((u.offered k t missing (a .north) (a .south)).confirm k).2 =
      u.windows.flatMap fun w => (u.confirmed k t missing a w).2 := by
    unfold confirm
    dsimp only
    rw [offered_windows, List.map_map, List.flatMap_map]
    rfl
  rw [now]
  congr 1
  unfold deadline
  dsimp only
  rw [confirmed]
  induction u.windows with
  | nil => rfl
  | cons w ws ih =>
    rw [List.map_cons, List.filter_cons, List.flatMap_cons, ← ih]
    cases passed : (u.confirmed k t missing a w).1.deadlinePassed k.tol t <;> simp [late, passed]

end

/-! ## Decisions of stages 5 and 6 at a window -/

section
variable (k : ZoneTables) (u : ZoneUnit) (v : Window)

/-- A rail is decided in stage 5 (R97). -/
def Window.settlesNow (r : Rail) : Bool := (v.state == .awaitingOff) && v.settles RailWindow.offSeen r

/-- A rail after stage 5. -/
def Window.railConfirmed (r : Rail) : RailWindow :=
  if v.settlesNow r then { v.rail r with decided := some (v.estimate k u r).condition } else v.rail r

theorem Window.railConfirmed_decided (r : Rail) :
    (v.railConfirmed k u r).decided.isSome = true ↔ (v.rail r).decided ≠ none ∨ v.settlesNow r = true := by
  unfold railConfirmed
  cases settles : v.settlesNow r
  · simp [Option.isSome_iff_ne_none]
  · simp

theorem Window.settlesNow_of_awaiting (awaiting : v.state = .awaitingOff) (r : Rail) :
    v.settlesNow r = v.settles RailWindow.offSeen r := by simp [settlesNow, awaiting]

theorem Window.settlesNow_of_not_awaiting (other : v.state ≠ .awaitingOff) (r : Rail) : v.settlesNow r = false := by
  simp [settlesNow, other]

theorem Window.confirm_snd :
    (v.confirm k u).2 = (([.north, .south] : List Rail).filter v.settlesNow).map (v.estimate k u) := by
  unfold confirm
  by_cases awaiting : v.state = .awaitingOff
  · rw [if_pos awaiting, decide_eq, funext (v.settlesNow_of_awaiting awaiting)]
  · rw [if_neg awaiting, funext (v.settlesNow_of_not_awaiting awaiting)]
    rfl

theorem Window.confirm_fst :
    (v.confirm k u).1 =
      { v with
        state :=
          if v.state = .awaitingOff ∧ ∀ r : Rail, r ∈ [Rail.north, .south] →
              (v.rail r).decided ≠ none ∨ v.settlesNow r = true then .done
          else v.state
        north := v.railConfirmed k u .north
        south := v.railConfirmed k u .south } := by
  unfold confirm
  by_cases awaiting : v.state = .awaitingOff
  · have after (r : Rail) : v.railAfter k u RailWindow.offSeen r = v.railConfirmed k u r := by
      rw [railAfter, railConfirmed, settlesNow_of_awaiting v awaiting]
    rw [if_pos awaiting, decide_eq]
    dsimp only
    simp only [after, railConfirmed_decided, awaiting, true_and, List.forall_mem_cons, List.not_mem_nil, false_implies, implies_true, and_true]
  · have after (r : Rail) : v.railConfirmed k u r = v.rail r := by
      rw [railConfirmed, settlesNow_of_not_awaiting v awaiting]
      rfl
    rw [if_neg awaiting, after, after, if_neg fun all => awaiting all.1]
    rfl

theorem Window.confirm_rail (r : Rail) : (v.confirm k u).1.rail r = v.railConfirmed k u r := by
  rw [confirm_fst]
  cases r <;> rfl

/-- At its deadline a window decides the rails that stage 5 has left undecided (R98). -/
theorem Window.decide_confirm {x : ZoneUnit} (channels : ∀ r, x.channel r = u.channel r) :
    ((v.confirm k u).1.decide k x fun _ => true).2 =
      (([.north, .south] : List Rail).filter fun r => (v.rail r).decided.isNone && !v.settlesNow r).map
        (v.estimate k u) := by
  have left (r : Rail) : (v.confirm k u).1.settles (fun _ => true) r =
      ((v.rail r).decided.isNone && !v.settlesNow r) := by
    unfold settles
    rw [confirm_rail, railConfirmed]
    cases settlesNow v r <;> simp
  rw [decide_eq]
  dsimp only
  rw [funext left]
  refine List.map_congr_left fun r mem => ?_
  obtain ⟨-, undecided⟩ := List.mem_filter.1 mem
  rw [Bool.and_eq_true, Bool.not_eq_true'] at undecided
  have same : v.railConfirmed k u r = v.rail r := by
    rw [railConfirmed, undecided.2]
    rfl
  unfold estimate
  rw [confirm_rail, same, channels]
  refine decideEstimate_congr ?_ ?_ ?_ rfl rfl _ _ _ <;> rw [confirm_fst]

end

/-! ## The whole scan -/

section
variable (k : ZoneTables) (t : Scan) (missing : Option (Scan × Scan)) (a : Rail → Sample) (u : ZoneUnit)

theorem ZoneUnit.confirmed_span (w : Window) :
    (u.confirmed k t missing a w).1.inScan = w.inScan ∧ (u.confirmed k t missing a w).1.outScan = w.outScan := by
  unfold confirmed
  rw [Window.confirm_fst]
  exact ⟨rfl, rfl⟩

/-- A window past its deadline covers the scan no more (R84, R98). -/
theorem covers_of_deadlinePassed {tol : Nat} {w : Window} (passed : w.deadlinePassed tol t = true) :
    w.covers tol t = false := by
  rw [Window.deadlinePassed, before_iff] at passed
  have : atOrBefore t (w.outScan + BitVec.ofNat 32 tol) = false := by
    rw [Bool.eq_false_iff, Ne, atOrBefore_iff]
    generalize w.outScan + BitVec.ofNat 32 tol = o at passed ⊢
    rw [← neg_sub o t] at passed
    generalize o - t = d at passed ⊢
    rw [BitVec.toInt_eq_toNat_cond, BitVec.toNat_neg] at passed
    rw [BitVec.toInt_eq_toNat_cond]
    omega
  unfold Window.covers within
  rw [this, Bool.and_false]

theorem ZoneUnit.settled_covers :
    ((u.settled k t missing (a .north) (a .south)).windows.any fun w => w.covers k.tol t) =
      u.windows.any fun w => w.covers k.tol t := by
  rw [settled_windows]
  induction u.windows with
  | nil => rfl
  | cons w ws ih =>
    have span := u.confirmed_span k t missing a w
    have covers : (u.confirmed k t missing a w).1.covers k.tol t = w.covers k.tol t := by
      unfold Window.covers
      rw [span.1, span.2]
    have passes : (u.confirmed k t missing a w).1.deadlinePassed k.tol t = w.deadlinePassed k.tol t := by
      unfold Window.deadlinePassed
      rw [span.2]
    rw [List.filterMap_cons, List.any_cons, ← ih]
    unfold stays
    rw [passes]
    cases passed : w.deadlinePassed k.tol t
    · simp [covers]
    · simp [covers_of_deadlinePassed t passed]

/-- A channel behind the whole scan, and its failing block (R84, R85). -/
theorem ZoneUnit.scan_channel_of_record {r : Rail} {rec : ChannelRecord} (held : k.record r = some rec) {c : Channel × Bool}
    (track : c = (((u.channel r).cut missing).detect k.nOn k.nOff rec t (a r)).1.track rec
      (u.windows.any fun w => w.covers k.tol t) (a r)) :
    (u.scan k t missing (a .north) (a .south)).unit.channel r = c.1 ∧
      (r ∈ (u.scan k t missing (a .north) (a .south)).failing ↔ c.2 = true) := by
  have settled : (u.settled k t missing (a .north) (a .south)).channel r =
      (((u.channel r).cut missing).detect k.nOn k.nOff rec t (a r)).1 := by
    rw [ZoneUnit.settled, deadline_channel, confirm_channel, offered, offer_channel, offer_channel,
      sensed_channel_of_record k t missing a u held]
  rw [← settled, ← settled_covers k t missing a u] at track
  rw [scan_eq]
  cases r
  · have north := track_of_record (u.settled k t missing (a .north) (a .south)) k t .north held (a .north)
    refine ⟨?_, ?_⟩
    · dsimp only
      rw [track_channel_of_ne _ k t .south .north (by decide), north, setChannel_channel, if_pos rfl, track]
    · dsimp only
      rw [north, ← track]
      cases c.2 <;> simp
  · have kept := track_channel_of_ne (u.settled k t missing (a .north) (a .south)) k t .north .south (by decide) (a .north)
    have south := track_of_record ((u.settled k t missing (a .north) (a .south)).track k t .north (a .north)).1 k t .south
      held (a .south)
    rw [kept, track_windows] at south
    refine ⟨?_, ?_⟩
    · dsimp only
      rw [south, setChannel_channel, if_pos rfl, track]
    · dsimp only
      rw [south, ← track]
      cases c.2 <;> simp

/-- A channel without a record has no block to fail (R82). -/
theorem ZoneUnit.not_mem_failing {r : Rail} (absent : k.record r = none) :
    r ∉ (u.scan k t missing (a .north) (a .south)).failing := by
  rw [scan_eq]
  cases r
  · rw [track_of_no_record _ k t .north absent]
    simp
  · rw [track_of_no_record _ k t .south absent]
    simp

/-- At most one entry for each rail, North first. -/
theorem rails_sublist (p q : Prop) [Decidable p] [Decidable q] :
    ((if p then [Rail.north] else []) ++ if q then [Rail.south] else []).Sublist [.north, .south] := by
  refine List.Sublist.append (l₂ := [Rail.north]) ?_ ?_ <;> split <;> simp

theorem ZoneUnit.isPhantom_sensed (e : Option PresenceEvent) :
    (u.sensed k t missing (a .north) (a .south)).isPhantom k e = true ↔
      ∃ x, e = some (.on x) ∧ ∀ w ∈ u.windows, w.inOnBand k.tol x = false := by
  have band (w : Window) (x : Scan) :
      ((((w.gapMarked missing).openAt t).closeAt t (u.channel .north).baseline (u.channel .south).baseline).sampled t
        a).inOnBand k.tol x = w.inOnBand k.tol x := by
    unfold Window.inOnBand
    rw [Window.sampled_progressed t k.tol (fun _ => none) (fun r => (u.channel r).baseline) a (w.gapMarked missing),
      Window.gapMarked_eq]
  unfold isPhantom
  match e with
  | none => simp
  | some (.off x) => simp
  | some (.on x) => simp [sensed_windows, band]

theorem ZoneUnit.mem_phantoms (r : Rail) :
    r ∈ (u.scan k t missing (a .north) (a .south)).phantoms ↔
      ∃ x, u.event k t missing (a .north) (a .south) r = some (.on x) ∧ ∀ w ∈ u.windows, w.inOnBand k.tol x = false := by
  rw [← isPhantom_sensed k t missing a u, scan_eq]
  cases r <;> cases (u.sensed k t missing (a .north) (a .south)).isPhantom k _ <;> simp

/-- R82, R97: what the window of a list is decided with reads the channel as it stood. -/
theorem ZoneUnit.estimate_advance (w : Window) (r : Rail) :
    (u.advance k t missing a w).estimate k (u.offered k t missing (a .north) (a .south)) r =
      decideEstimate (u.advance k t missing a w) (channelOf k.index r) (u.channel r) (k.record r)
        ((u.advance k t missing a w).rail r) := by
  have keeps := u.sensed_channel_keeps k t missing a r
  unfold Window.estimate
  refine decideEstimate_congr rfl rfl rfl ?_ ?_ _ _ _
  · rw [offered, offer_channel, offer_channel]
    exact keeps.1
  · rw [offered, offer_channel, offer_channel]
    exact keeps.2

end

/-! ## The stages as conditions -/

section
variable (missing : Option (Scan × Scan)) (t : Scan) (tol : Nat) (ev : Rail → Option PresenceEvent) (base : Rail → Int)
  (a : Rail → Sample) (w : Window)

theorem Window.gapAfter_iff :
    w.gapAfter missing = true ↔
      w.gap = true ∨ ∃ m0 m1, missing = some (m0, m1) ∧ 0 ≤ (w.stop - w.start).toInt ∧ 0 ≤ (m1 - w.start).toInt ∧
        0 ≤ (w.stop - m0).toInt := by
  unfold gapAfter
  rw [Bool.or_eq_true]
  refine or_congr_right ?_
  cases missing with
  | none => simp
  | some m =>
    simp only [touches, atOrBefore_iff, Bool.and_eq_true, Option.some.injEq]
    constructor
    · exact fun all => ⟨m.1, m.2, rfl, all.1.1, all.1.2, all.2⟩
    · rintro ⟨m0, m1, rfl, span, before, behind⟩
      exact ⟨⟨span, before⟩, behind⟩

theorem Window.opens_iff :
    w.opens t = true ↔ w.state = .opened ∨ (w.state = .pending ∧ 0 ≤ (t - w.start).toInt) := by
  simp only [opens, Bool.or_eq_true, Bool.and_eq_true, beq_iff_eq, atOrBefore_iff]

theorem Window.closes_iff : w.closes t = true ↔ w.opens t = true ∧ 0 < (t - w.stop).toInt := by
  simp only [closes, Bool.and_eq_true, before_iff]

theorem Window.takes_iff :
    w.takes t = true ↔
      w.opens t = true ∧ w.closes t = false ∧ 0 ≤ (t - w.start).toInt ∧ 0 ≤ (w.stop - t).toInt := by
  simp only [takes, within, Bool.and_eq_true, Bool.not_eq_true', atOrBefore_iff, and_assoc]

theorem Window.seesOn_iff (r : Rail) :
    w.seesOn tol ev r = true ↔
      (w.rail r).onSeen = true ∨
        (w.rail r).decided = none ∧ ∃ e, ev r = some (.on e) ∧ w.inOnBand tol e = true := by
  unfold seesOn
  rw [Bool.or_eq_true, Bool.and_eq_true, Option.isNone_iff_eq_none]
  match ev r with
  | none => simp
  | some (.off e) => simp
  | some (.on e) => simp

theorem Window.seesOff_iff (r : Rail) :
    w.seesOff tol ev r = true ↔
      (w.rail r).offSeen = true ∨
        (w.rail r).decided = none ∧ ∃ e, ev r = some (.off e) ∧ w.inOffBand tol e = true := by
  unfold seesOff
  rw [Bool.or_eq_true, Bool.and_eq_true, Option.isNone_iff_eq_none]
  match ev r with
  | none => simp
  | some (.off e) => simp
  | some (.on e) => simp

theorem Window.rail_advanced (r : Rail) :
    (w.advanced missing t tol ev base a).rail r = w.railAdvanced t tol ev base a r := by cases r <;> rfl

theorem Window.settlesNow_advanced (r : Rail) :
    (w.advanced missing t tol ev base a).settlesNow r = true ↔
      (w.advanced missing t tol ev base a).state = .awaitingOff ∧ (w.rail r).decided = none ∧ w.seesOff tol ev r = true := by
  unfold settlesNow settles
  rw [rail_advanced, Bool.and_eq_true, Bool.and_eq_true, beq_iff_eq, Option.isNone_iff_eq_none]
  rfl

end

/-! ## The mass of a rail -/

/-- R102, R103 in signs and magnitudes. -/
theorem RailWindow.mass_eq {x : RailWindow} {base : Int} (closed : x.closeBase = some base) (some' : 1 ≤ x.count)
    (c : Channel) (rec : ChannelRecord) {s8 m8 m : Int} (sum : s8 = 8 * x.sum - x.count * base)
    (mean : m8 = s8.sign * ((2 * s8.natAbs + x.count) / (2 * x.count) : Nat))
    (mass : m = (m8 * rec.gain).sign * ((2 * (m8 * rec.gain).natAbs + 524288) / 1048576 : Nat)) : x.mass c rec = m := by
  have m8' : railMean x.sum x.count base = m8 := by
    rw [railMean, ← sum, roundHalfAway_eq s8 some', mean]
  rw [RailWindow.mass, closed, Option.getD_some, wheelMass, m8', roundHalfAway_eq _ (by decide), mass]

end Sys2Proof.Machine

open Sys2Proof Sys2Proof.Machine

/-- Settles O29: each channel and each window of the list through the stages on its own; the mass by the cases of R97. -/
theorem wheelMassDecidesTheRail : Obligations.WheelMassDecidesTheRail := by
  refine ⟨?_, ?_⟩
  · rintro k t missing n s u y a cut ev rfl rfl rfl hcut hev
    have cuts : cut = Channel.cut missing := funext fun c => hcut c
    subst cuts
    have events : ev = u.event k t missing (a .north) (a .south) := by
      funext r
      cases held : k.record r with
      | none => rw [(hev r).1 held, u.event_of_no_record k t missing a held]
      | some rec => rw [(hev r).2 rec held, u.event_of_record k t missing a held]
    subst events
    refine ⟨fun r => ⟨fun absent => ⟨u.scan_channel_of_no_record k t missing _ _ absent,
        u.not_mem_failing k t missing a absent⟩,
      fun rec c held track => u.scan_channel_of_record k t missing a held track⟩, ?_, ?_, u.mem_phantoms k t missing a,
      u.stays k t missing a, fun w => (u.confirmed k t missing a w).2, u.late k t missing a, ?_, ?_, ?_⟩
    · rw [ZoneUnit.scan_eq]
      exact rails_sublist _ _
    · rw [ZoneUnit.scan_eq]
      exact rails_sublist _ _
    · rw [ZoneUnit.scan_eq]
      dsimp only
      rw [ZoneUnit.track_windows, ZoneUnit.track_windows, ZoneUnit.settled_windows]
    · rw [ZoneUnit.scan_eq]
      exact u.settled_handed k t missing a
    · intro w v gap opened closes takes onSeen offSeen settles x h hgap hopened hcloses htakes honSeen hoffSeen hx hv
        hsettles hh
      have same {p q : Bool} (h : p = true ↔ q = true) : p = q := Bool.eq_iff_iff.2 h
      have e1 : gap = w.gapAfter missing := same (hgap.trans (w.gapAfter_iff missing).symm)
      have e2 : opened = w.opens t := same (hopened.trans (w.opens_iff t).symm)
      subst e1 e2
      have e3 : closes = w.closes t := same (hcloses.trans (w.closes_iff t).symm)
      subst e3
      have e4 : takes = w.takes t := same (htakes.trans (w.takes_iff t).symm)
      have e5 : onSeen = w.seesOn k.tol (u.event k t missing (a .north) (a .south)) :=
        funext fun r => same ((honSeen r).trans (w.seesOn_iff _ _ r).symm)
      have e6 : offSeen = w.seesOff k.tol (u.event k t missing (a .north) (a .south)) :=
        funext fun r => same ((hoffSeen r).trans (w.seesOff_iff _ _ r).symm)
      subst e4 e5 e6
      have e7 : x = w.railAdvanced t k.tol (u.event k t missing (a .north) (a .south)) (fun r => (u.channel r).baseline) a :=
        funext hx
      subst e7
      have e8 : v = u.advance k t missing a w := hv
      subst e8
      have e9 : settles = (u.advance k t missing a w).settlesNow :=
        funext fun r => same ((hsettles r).trans (w.settlesNow_advanced missing t k.tol _ _ a r).symm)
      have rail (r : Rail) : (u.advance k t missing a w).rail r =
          w.railAdvanced t k.tol (u.event k t missing (a .north) (a .south)) (fun r => (u.channel r).baseline) a r :=
        w.rail_advanced missing t k.tol _ _ a r
      have e10 : h = (u.advance k t missing a w).estimate k (u.offered k t missing (a .north) (a .south)) :=
        funext fun r => (hh r).trans (by rw [u.estimate_advance k t missing a w r, rail])
      subst e9 e10
      have decided (r : Rail) : ((u.advance k t missing a w).rail r).decided = (w.rail r).decided := by rw [rail]; rfl
      have passes : (u.confirmed k t missing a w).1.deadlinePassed k.tol t =
          decide (0 < (t - (w.outScan + BitVec.ofNat 32 k.tol)).toInt) := by
        unfold Window.deadlinePassed
        rw [(u.confirmed_span k t missing a w).2]
        rfl
      refine ⟨Window.confirm_snd k _ _, fun passed => ⟨?_, ?_⟩, fun within => ⟨?_, ?_⟩⟩
      · rw [ZoneUnit.stays, passes, decide_eq_true passed]
        rfl
      · rw [ZoneUnit.late, passes, decide_eq_true passed, if_pos rfl]
        refine (Window.decide_confirm k _ _ fun r => ZoneUnit.confirm_channel _ k r).trans ?_
        simp only [decided]
      · rw [ZoneUnit.late, passes, decide_eq_false (not_lt.2 within)]
        rfl
      · rw [ZoneUnit.stays, passes, decide_eq_false (not_lt.2 within), if_neg (by decide), ZoneUnit.confirmed,
          Window.confirm_fst]
        simp only [Window.railConfirmed, rail]
        rfl
  · intro w ch c rec x base s8 m8 m h closed some' sum mean mass hh
    have same := RailWindow.mass_eq closed some' c rec sum mean mass
    rw [decideEstimate_of_record, same] at hh
    subst hh
    refine ⟨rfl, rfl, rfl, fun gap => ?_, fun clear fault => ?_, fun clear sound off => ?_,
      fun clear sound on off => ?_, fun other => if_neg other, fun other => ?_, fun clear sound on off => ?_⟩
    · simp [railCondition, gap]
    · simp [railCondition, clear, fault]
    · simp [railCondition, clear, sound, off]
    · simp [railCondition, clear, sound, on, off]
    · have : (railCondition w.gap x m == .saturated) = false := by simpa using other
      simp only [this, Bool.false_and, Bool.false_or, true_and]
      rfl
    · have condition := railCondition_of_seen x clear sound on off m
      refine ⟨fun below => ?_, fun least most => ?_, fun above => ?_⟩
      · simp only [condition, below, true_or, if_true]
        simp
        omega
      · have inside : ¬(m < 0 ∨ 65535 < m) := by omega
        simp [condition, inside]
      · simp [condition, above]
        omega

end

section
/-! Formation: the judgment and the reading of the Type Table, the split, and a consideration as steps of one vehicle each; what
completion and formation leave alone (R130 to R136, R144, R149). -/

namespace Sys2Proof.Machine

/-! ## What a completion leaves alone -/

/-- What names a vehicle and its axles. -/
def Vehicle.span (v : Vehicle) : Nat × Nat × Nat := (v.sequence, v.first, v.count)

/-- From s to t the vehicles of the list change but for their names, and nothing else does. -/
structure ListOnly (s t : State) : Prop where
  frame : t = { s with asm := { s.asm with list := t.asm.list } }
  spans : t.asm.list.map Vehicle.span = s.asm.list.map Vehicle.span

theorem ListOnly.refl (s : State) : ListOnly s s := ⟨rfl, rfl⟩

theorem ListOnly.trans {s t u : State} (h : ListOnly s t) (k : ListOnly t u) : ListOnly s u :=
  ⟨by rw [k.frame, h.frame], k.spans.trans h.spans⟩

theorem ListOnly.sequences {s t : State} (h : ListOnly s t) :
    t.asm.list.map Vehicle.sequence = s.asm.list.map Vehicle.sequence := by
  have := congrArg (List.map Prod.fst) h.spans
  simp only [List.map_map] at this
  exact this

theorem ListOnly.length {s t : State} (h : ListOnly s t) : t.asm.list.length = s.asm.list.length := by
  have := congrArg List.length h.spans
  simpa only [List.length_map] using this

theorem modifyVehicle_listOnly (q : Nat) (f : Vehicle → Vehicle) (s : State) (keeps : ∀ v, (f v).span = v.span) :
    ListOnly s (modifyVehicle q f s) := by
  refine ⟨rfl, ?_⟩
  simp only [modifyVehicle, List.map_map]
  refine List.map_congr_left fun v _ => ?_
  simp only [Function.comp_apply]
  split
  · exact keeps v
  · rfl

theorem Vehicle.resolveFrom_span (list : List ConsistEntry) (f : VehicleFlag) (v : Vehicle) :
    (v.resolveFrom list f).span = v.span := by
  unfold resolveFrom
  split <;> rfl

theorem forceLowest_spans (l : List Vehicle) : (forceLowest l).map Vehicle.span = l.map Vehicle.span := by
  induction l with
  | nil => rfl
  | cons v rest ih =>
    unfold forceLowest
    split
    · rfl
    · rw [List.map_cons, List.map_cons, ih]

theorem beginWait_listOnly (q : Nat) (s : State) : ListOnly s (beginWait q s) := by
  refine ListOnly.trans (t := { s with asm := { s.asm with
    list := if waitingCapacity ≤ waitingCount s.asm.list then forceLowest s.asm.list else s.asm.list } }) ⟨rfl, ?_⟩
      (modifyVehicle_listOnly q _ _ fun _ => rfl)
  dsimp only
  split
  · exact forceLowest_spans _
  · rfl

theorem resolveAtCompletion_listOnly (q : Nat) (s : State) : ListOnly s (resolveAtCompletion q s) := by
  unfold resolveAtCompletion
  split
  · exact .refl s
  split
  · split
    · exact modifyVehicle_listOnly q _ s (Vehicle.resolveFrom_span _ _)
    split
    · exact modifyVehicle_listOnly q _ s fun _ => rfl
    split
    · exact modifyVehicle_listOnly q _ s fun _ => rfl
    · exact beginWait_listOnly q s
  · exact .refl s

theorem completeVehicle_listOnly (q : Nat) (s : State) : ListOnly s (completeVehicle q s) := by
  refine (modifyVehicle_listOnly q _ s ?_).trans (resolveAtCompletion_listOnly q _)
  exact fun _ => rfl

theorem reportClearance_listOnly (j : Nat) (s : State) : ListOnly s (reportClearance j s) := by
  unfold reportClearance
  split
  · exact completeVehicle_listOnly _ s
  · exact .refl s

/-! ## What a formation leaves alone -/

/-- From s to t vehicles were formed: they stand behind those of the list, and records name their vehicles. -/
structure Formed (s t : State) : Prop where
  frame :
    t = { s with
          asm := { s.asm with list := t.asm.list, nextSeq := t.asm.nextSeq, firstFree := t.asm.firstFree }
          axles := { s.axles with queue := t.axles.queue } }
  queue : ∃ f : AxleRecord → Option Nat, t.axles.queue = s.axles.queue.map fun a => { a with vehicle := f a }
  spans : ∃ formed, t.asm.list.map Vehicle.span = s.asm.list.map Vehicle.span ++ formed

theorem Formed.refl (s : State) : Formed s s :=
  ⟨rfl, ⟨AxleRecord.vehicle, (List.map_id _).symm⟩, [], (List.append_nil _).symm⟩

theorem Formed.trans {s t u : State} (h : Formed s t) (k : Formed t u) : Formed s u := by
  obtain ⟨f, hf⟩ := h.queue
  obtain ⟨g, hg⟩ := k.queue
  obtain ⟨l, hl⟩ := h.spans
  obtain ⟨m, hm⟩ := k.spans
  refine ⟨by rw [k.frame, h.frame], ⟨fun a => g { a with vehicle := f a }, ?_⟩, l ++ m, ?_⟩
  · rw [hg, hf, List.map_map]
    rfl
  · rw [hm, hl, List.append_assoc]

theorem ListOnly.formed {s t : State} (h : ListOnly s t) : Formed s t := by
  refine ⟨?_, ⟨AxleRecord.vehicle, ?_⟩, [], ?_⟩
  · rw [h.frame]
  · rw [h.frame]
    exact (List.map_id _).symm
  · rw [h.spans, List.append_nil]

/-- A vehicle placed at the tail, its axles assigned (R133). -/
def placeVehicle (v : Vehicle) (s : State) : State :=
  { s with
    asm := { s.asm with list := s.asm.list ++ [v], nextSeq := s.asm.nextSeq + 1, firstFree := v.first + v.count }
    axles := s.axles.assign v (some v.sequence) }

theorem formVehicle_eq (v : Vehicle) (s : State) :
    formVehicle v s =
      if v.last < s.axles.firstOn then completeVehicle v.sequence (placeVehicle v s) else placeVehicle v s := rfl

theorem placeVehicle_formed (v : Vehicle) (s : State) : Formed s (placeVehicle v s) := by
  refine ⟨rfl, ⟨fun a => if v.first ≤ a.ordinal ∧ a.ordinal ≤ v.last then some v.sequence else a.vehicle, ?_⟩,
    [v.span], by simp [placeVehicle]⟩
  refine List.map_congr_left fun a _ => ?_
  dsimp only
  split <;> rfl

theorem formVehicle_formed (v : Vehicle) (s : State) : Formed s (formVehicle v s) := by
  rw [formVehicle_eq]
  split
  · exact (placeVehicle_formed v s).trans (completeVehicle_listOnly _ _).formed
  · exact placeVehicle_formed v s

theorem considerFrom_formed (n : Nat) (s : State) : Formed s (considerFrom n s) := by
  induction n generalizing s with
  | zero => exact .refl s
  | succ n ih =>
    unfold considerFrom
    split
    next v _ => exact (formVehicle_formed v s).trans (ih _)
    · exact .refl s

theorem considerFormation_formed (s : State) : Formed s (considerFormation s) := considerFrom_formed _ s

/-- Records keep all but the vehicle they name. -/
theorem Formed.find {s t : State} (h : Formed s t) (j : Nat) :
    ∃ f : AxleRecord → Option Nat, t.axles.find j = (s.axles.find j).map fun a => { a with vehicle := f a } := by
  obtain ⟨f, queue⟩ := h.queue
  refine ⟨f, ?_⟩
  unfold AxleTracker.find
  rw [queue, List.find?_map]
  rfl

/-! ## Consideration as steps -/

/-- The list holds no more than 16 vehicles after a formation; more fuel than its room changes nothing. -/
theorem considerFrom_fuel (n : Nat) (s : State) (enough : vehicleCapacity ≤ n + s.asm.list.length) :
    considerFrom (n + 1) s = considerFrom n s := by
  induction n generalizing s with
  | zero =>
    have full : s.formable = none := by
      unfold State.formable
      dsimp only
      rw [if_neg]
      simp only [Bool.and_eq_true, decide_eq_true_eq]
      omega
    simp only [considerFrom, full]
  | succ n ih =>
    cases formable : s.formable with
    | none => simp only [considerFrom, formable]
    | some v =>
      have longer : (formVehicle v s).asm.list.length = s.asm.list.length + 1 := by
        have placed : (placeVehicle v s).asm.list.length = s.asm.list.length + 1 := by simp [placeVehicle]
        rw [formVehicle_eq]
        split
        · rw [(completeVehicle_listOnly _ _).length, placed]
        · exact placed
      have := ih (formVehicle v s) (by omega)
      rw [considerFrom, considerFrom, formable]
      exact this

theorem considerFormation_of_none {s : State} (none : s.formable = none) : considerFormation s = s := by
  simp only [considerFormation, vehicleCapacity, considerFrom, none]

theorem considerFormation_of_some {s : State} {v : Vehicle} (formable : s.formable = some v) :
    considerFormation s = considerFormation (formVehicle v s) := by
  have step : considerFormation s = considerFrom 15 (formVehicle v s) := by
    rw [considerFormation, vehicleCapacity, considerFrom, formable]
  have some' : 1 ≤ (formVehicle v s).asm.list.length := by
    have placed : 1 ≤ (placeVehicle v s).asm.list.length := by simp [placeVehicle]
    rw [formVehicle_eq]
    split
    · rw [(completeVehicle_listOnly _ _).length]
      exact placed
    · exact placed
  rw [step]
  exact (considerFrom_fuel 15 (formVehicle v s) (by rw [vehicleCapacity]; omega)).symm

/-! ## Judging an entry (R131, R144) -/

section
variable (x : AxleTracker)

theorem AxleTracker.entered_iff (j : Nat) : x.entered j = true ↔ j ≤ x.lastOn := decide_eq_true_iff

theorem AxleTracker.knownAnd_iff (test : Nat → Bool) (j : Nat) :
    x.knownAnd test j = true ↔ ∃ d, x.KnownSpacing j d ∧ test d = true := by
  unfold knownAnd KnownSpacing
  rw [Bool.and_eq_true, entered_iff]
  cases x.spacingAt j <;> simp

theorem AxleTracker.unknownSpacing_iff (j : Nat) :
    x.unknownSpacing j = true ↔ j ≤ x.lastOn ∧ x.spacingAt j = none := by
  unfold unknownSpacing
  rw [Bool.and_eq_true, entered_iff, Option.isNone_iff_eq_none]

theorem AxleTracker.ownSpacingFails_iff (tolerance j : Nat) (l : List Nat) :
    x.ownSpacingFails tolerance j l = true ↔
      ∃ i s d, l[i]? = some s ∧ x.KnownSpacing (j + i) d ∧ (d + tolerance < s ∨ s + tolerance < d) := by
  induction l generalizing j with
  | nil => simp [ownSpacingFails]
  | cons s l ih =>
    rw [ownSpacingFails, Bool.or_eq_true, ih, knownAnd_iff]
    simp only [Bool.or_eq_true, decide_eq_true_eq]
    constructor
    · rintro (⟨d, known, outside⟩ | ⟨i, s', d, entry, known, outside⟩)
      · exact ⟨0, s, d, rfl, known, outside⟩
      · exact ⟨i + 1, s', d, entry, by rwa [show j + (i + 1) = j + 1 + i by omega], outside⟩
    · rintro ⟨i, s', d, entry, known, outside⟩
      cases i with
      | zero =>
        cases entry
        exact .inl ⟨d, known, outside⟩
      | succ i => exact .inr ⟨i, s', d, entry, by rwa [show j + 1 + i = j + (i + 1) by omega], outside⟩

/-- R131: what fails an entry. -/
theorem AxleTracker.fails_iff (k : Nat) (t : VehicleType) :
    (x.ownSpacingFails t.tolerance (k + 1) t.spacings || x.knownAnd (fun d => decide (d < t.gapMin)) (k + t.axles)) = true ↔
      x.Fails k t := by
  rw [Bool.or_eq_true, ownSpacingFails_iff, knownAnd_iff]
  unfold Fails
  simp only [decide_eq_true_eq, show ∀ i, k + 1 + i = k + i + 1 by intro i; omega]

/-- SPACING_UNCERTAIN of an entry (R131). -/
def AxleTracker.uncertain (k : Nat) (t : VehicleType) : Bool := (List.range t.axles).any fun i => x.unknownSpacing (k + 1 + i)

theorem AxleTracker.uncertain_iff (k : Nat) (t : VehicleType) :
    x.uncertain k t = true ↔ ∃ i, 1 ≤ i ∧ i ≤ t.axles ∧ k + i ≤ x.lastOn ∧ x.spacingAt (k + i) = none := by
  unfold uncertain
  simp only [List.any_eq_true, List.mem_range, unknownSpacing_iff]
  constructor
  · rintro ⟨i, low, entered, unknown⟩
    rw [show k + 1 + i = k + (i + 1) by omega] at entered unknown
    exact ⟨i + 1, by omega, by omega, entered, unknown⟩
  · rintro ⟨i, least, most, entered, unknown⟩
    refine ⟨i - 1, by omega, ?_⟩
    rw [show k + 1 + (i - 1) = k + i by omega]
    exact ⟨entered, unknown⟩

theorem AxleTracker.judge_of_fails {flush : Bool} {k : Nat} {t : VehicleType} (fails : x.Fails k t) :
    x.judge flush k t = .fails := if_pos ((x.fails_iff k t).2 fails)

theorem AxleTracker.judge_of_passes {flush : Bool} {k : Nat} {t : VehicleType} (passes : ¬x.Fails k t) :
    x.judge flush k t =
      if flush then if k + t.axles - 1 ≤ x.lastOn then .fits (x.uncertain k t) else .fails
      else if k + t.axles ≤ x.lastOn then .fits (x.uncertain k t)
      else .undecided := by
  refine (if_neg (mt (x.fails_iff k t).1 passes)).trans ?_
  simp only [entered_iff, uncertain]

/-! ## The split (R134) -/

/-- Ordinals that run on are passed over. -/
theorem AxleTracker.split_runsOn (flush : Bool) (splitGap k : Nat) {i : Nat} (runs : x.RunsOn splitGap k i) (low : i ≤ 8) (n : Nat)
    {j : Nat} (least : 1 ≤ j) (most : j ≤ i) :
    x.split flush splitGap k (n + (i - j)) j = x.split flush splitGap k n i := by
  induction gap : i - j generalizing j with
  | zero => rw [show j = i by omega, Nat.add_zero]
  | succ m ih =>
    obtain ⟨d, ⟨entered, spacing⟩, below⟩ := runs j least (by omega)
    rw [← Nat.add_assoc, split, if_pos ((x.entered_iff _).2 entered), if_neg (by omega), spacing]
    dsimp only
    rw [if_neg (by omega)]
    exact ih (by omega) (by omega) (by omega)

/-- The split looks at the first ordinal that does not run on. -/
theorem AxleTracker.split_at (flush : Bool) (splitGap k : Nat) {i : Nat} (runs : x.RunsOn splitGap k i) (least : 1 ≤ i) (low : i ≤ 8) :
    x.split flush splitGap k 8 1 =
      if k + i ≤ x.lastOn then
        if i = 8 then some (8, false)
        else
          match x.spacingAt (k + i) with
          | none => some (i, true)
          | some d => if splitGap ≤ d then some (i, false) else x.split flush splitGap k (8 - i) (i + 1)
      else if flush then some (i, false)
      else none := by
  have := x.split_runsOn flush splitGap k runs low (9 - i) (le_refl 1) least
  rw [show 9 - i + (i - 1) = 8 by omega, show 9 - i = 8 - i + 1 by omega] at this
  rw [this, split]
  simp only [entered_iff] <;> rfl

/-! ## The reading of the Type Table (R132) -/

theorem AxleTracker.chooseType_of_failing (flush : Bool) (k : Nat) {before : List (Option VehicleType)}
    (fails : ∀ e ∈ before, ∀ y, e = some y → x.judge flush k y = .fails) (after : List (Option VehicleType)) :
    x.chooseType flush k (before ++ after) = x.chooseType flush k after := by
  induction before with
  | nil => rfl
  | cons e before ih =>
    obtain ⟨here, later⟩ := List.forall_mem_cons.1 fails
    rw [List.cons_append]
    cases e with
    | none => exact ih later
    | some y => rw [chooseType, here y rfl, ih later]

end

/-! ## The vehicle to be formed (R130, R144) -/

/-- The Assembler may form now, at the flush of a QUIET end or during a train (R130, R144). -/
structure State.Forming (s : State) (flush : Bool) : Prop where
  mayForm : s.mayForm = true
  flush : s.quietFlush = flush
  entered : s.asm.firstFree ≤ s.axles.lastOn
  room : s.asm.list.length < 16

/-- An UNMATCHED vehicle of the split (R134). -/
def State.unmatchedVehicle (s : State) (r : Nat × Bool) : Vehicle :=
  { sequence := s.asm.nextSeq, first := s.asm.firstFree, count := r.1, typeCode := 0, kind := .other, tare := none
    maxGross := none, unmatched := true, uncertain := r.2, state := .formed, resolution := .unresolved, idFlags := 0 }

/-- A vehicle of a type (R133). -/
def State.matchedVehicle (s : State) (t : VehicleType) (u : Bool) : Vehicle :=
  { sequence := s.asm.nextSeq, first := s.asm.firstFree, count := t.axles, typeCode := t.code, kind := t.kind
    tare := t.tare, maxGross := t.maxGross, unmatched := false, uncertain := u, state := .formed
    resolution := .unresolved, idFlags := 0 }

section
variable {s : State} {flush : Bool}

theorem State.Forming.gate (h : s.Forming flush) :
    (s.mayForm && s.axles.entered s.asm.firstFree && decide (s.asm.list.length < vehicleCapacity)) = true := by
  rw [h.mayForm, (s.axles.entered_iff _).2 h.entered, Bool.true_and, Bool.true_and]
  exact decide_eq_true h.room

theorem State.formable_of_wait (h : s.Forming flush)
    (choice : s.axles.chooseType flush s.asm.firstFree s.asm.types.toList = .wait) : s.formable = none := by
  unfold State.formable
  dsimp only
  rw [if_pos h.gate, h.flush, choice]

theorem State.formable_of_take (h : s.Forming flush) {t : VehicleType} {u : Bool}
    (choice : s.axles.chooseType flush s.asm.firstFree s.asm.types.toList = .take t u) :
    s.formable = some (s.matchedVehicle t u) := by
  unfold State.formable
  dsimp only
  rw [if_pos h.gate, h.flush, choice]
  rfl

theorem State.formable_of_allFailed (h : s.Forming flush)
    (choice : s.axles.chooseType flush s.asm.firstFree s.asm.types.toList = .allFailed) :
    s.formable = (s.axles.split flush s.settings.splitGap s.asm.firstFree 8 1).map s.unmatchedVehicle := by
  unfold State.formable
  dsimp only
  rw [if_pos h.gate, h.flush, choice]
  rfl

theorem State.formable_of_closed (closed : s.mayForm = false ∨ s.axles.lastOn < s.asm.firstFree ∨ 16 ≤ s.asm.list.length) :
    s.formable = none := by
  unfold State.formable
  refine if_neg ?_
  rw [Bool.and_eq_true, Bool.and_eq_true, AxleTracker.entered_iff, decide_eq_true_iff, vehicleCapacity]
  rintro ⟨⟨may, entered⟩, room⟩
  rcases closed with shut | ahead | full
  · exact nomatch may.symm.trans shut
  · omega
  · omega

theorem State.forming_of_train (train : s.train.state = .running ∨ s.train.state = .standing)
    (entered : s.asm.firstFree ≤ s.axles.lastOn) (room : s.asm.list.length < 16) : s.Forming false := by
  refine ⟨?_, ?_, entered, room⟩
  · rcases train with state | state <;> simp [State.mayForm, state]
  · rcases train with state | state <;> simp [State.quietFlush, state]

theorem State.forming_of_quiet (ending : s.train.state = .ending) {c : TrainContext} (ctx : s.train.ctx = some c)
    (quiet : c.endReason = some .quiet) (entered : s.asm.firstFree ≤ s.axles.lastOn) (room : s.asm.list.length < 16) :
    s.Forming true := by
  have flush : s.quietFlush = true := by simp [State.quietFlush, ending, ctx, quiet]
  exact ⟨by simp [State.mayForm, flush], flush, entered, room⟩

theorem State.mayForm_of_idle (idle : s.train.state = .idle ∨ s.train.state = .ignoring) : s.mayForm = false := by
  rcases idle with state | state <;> simp [State.mayForm, State.quietFlush, state]

theorem State.mayForm_of_aborted (ending : s.train.state = .ending)
    (aborted : ∀ c, s.train.ctx = some c → c.endReason ≠ some .quiet) : s.mayForm = false := by
  cases ctx : s.train.ctx with
  | none => simp [State.mayForm, State.quietFlush, ending, ctx]
  | some c => simp [State.mayForm, State.quietFlush, ending, ctx, aborted c ctx]

end

end Sys2Proof.Machine

open Sys2Proof Sys2Proof.Machine

/-- Settles O33: the judgment and the split by their cases, the table by its first entry that does not fail. -/
theorem vehiclesFollowTheTypeTable : Obligations.VehiclesFollowTheTypeTable := by
  refine ⟨fun x flush k t => ?_, fun x flush splitGap k i least runs => ?_, fun s flush train free room => ?_,
    fun s blocked => ?_, fun s => ⟨considerFormation_of_none, ?_⟩⟩
  · by_cases fails : x.Fails k t
    · rw [x.judge_of_fails fails]
      simp [fails]
    · rw [x.judge_of_passes fails]
      have uncertain := x.uncertain_iff k t
      cases flush
      · by_cases entered : k + t.axles ≤ x.lastOn
        · simp [fails, entered, ← uncertain]
        · simp [fails, entered]
          omega
      · by_cases entered : k + t.axles - 1 ≤ x.lastOn
        · simp [fails, entered, ← uncertain]
        · simp [fails, entered]
          omega
  · refine ⟨fun low beyond => ?_, fun eight entered => ?_, fun low entered => ⟨fun unknown => ?_, fun d known wide => ?_⟩⟩
    · rw [x.split_at flush splitGap k runs least low, if_neg (by omega)]
    · subst eight
      rw [x.split_at flush splitGap k runs least (le_refl 8), if_pos entered, if_pos rfl]
    · rw [x.split_at flush splitGap k runs least (by omega), if_pos entered, if_neg (by omega), unknown]
    · rw [x.split_at flush splitGap k runs least (by omega), if_pos entered, if_neg (by omega), known]
      exact if_pos wide
  · have forming : s.Forming flush := by
      rcases train with ⟨state, rfl⟩ | ⟨ending, ⟨c, ctx, quiet⟩, rfl⟩
      · exact State.forming_of_train state free room
      · exact State.forming_of_quiet ending ctx quiet free room
    refine ⟨fun before after t split fails => ⟨fun undecided => ?_, fun u fits => ?_⟩, fun fails => ?_⟩
    · refine State.formable_of_wait forming ?_
      rw [split, AxleTracker.chooseType_of_failing _ _ _ fails, AxleTracker.chooseType, undecided]
    · refine State.formable_of_take forming ?_
      rw [split, AxleTracker.chooseType_of_failing _ _ _ fails, AxleTracker.chooseType, fits]
    · refine State.formable_of_allFailed forming ?_
      have all := s.axles.chooseType_of_failing flush s.asm.firstFree fails []
      rwa [List.append_nil] at all
  · refine State.formable_of_closed ?_
    rcases blocked with idle | ignoring | ahead | full | ⟨ending, aborted⟩
    · exact .inl (State.mayForm_of_idle (.inl idle))
    · exact .inl (State.mayForm_of_idle (.inr ignoring))
    · exact .inr (.inl ahead)
    · exact .inr (.inr full)
    · exact .inl (State.mayForm_of_aborted ending aborted)
  · rintro v m formable rfl
    rw [considerFormation_of_some formable, formVehicle_eq]
    rfl

end

section
/-! A release as one step: the record placed, the axles gone, the counts, and the consideration behind it (R78, R142, R153 to
R155, R175). -/

namespace Sys2Proof.Machine

section
variable (s : State) (v : Vehicle) (x : VehicleTotals) (c : TrainContext)

/-- The head vehicle's record placed, the vehicle and its axles gone, the counts of the context advanced (R78, R142, R154). -/
def State.sent : State :=
  { s with
    link := { s.link with records := s.link.records ++ [.vehicle (vehicleRecord c.number s.axles v x)] }
    notices :=
      s.notices.raises .recordBacklog (if s.link.records.length = 47 then [c.number.toNat] else [])
    axles := s.axles.release v.last
    asm := { s.asm with list := s.asm.list.tail }
    train := { s.train with ctx := some (c.countRelease v x) } }

/-- The head vehicle sent and counted (R175). -/
def State.released : State :=
  if v.unmatched then countEvent .unmatchedVehicles 1 (countEvent .vehiclesReleased 1 (s.sent v x c))
  else countEvent .vehiclesReleased 1 (s.sent v x c)

variable {s v x c}

theorem releaseVehicle_eq (context : s.train.ctx = some c) :
    releaseVehicle v x s = considerFormation (s.released v x c) := by
  have sent : modifyCtx (TrainContext.countRelease v x) (dropHead { placeRecord (.vehicle (vehicleRecord
      ((s.train.ctx.map TrainContext.number).getD 0) s.axles v x)) s with axles := s.axles.release v.last }) = s.sent v x c := by
    unfold modifyCtx dropHead placeRecord State.sent
    rw [context]
    dsimp only [Option.map_some, Option.getD_some, vehicleRecord, QueueRecord.train]
    split <;> rfl
  exact congrArg (fun u => considerFormation (if v.unmatched then
    countEvent .unmatchedVehicles 1 (countEvent .vehiclesReleased 1 u) else countEvent .vehiclesReleased 1 u)) sent

variable (s v x c)

theorem sent_counts : s.Counts (s.sent v x c) (fun _ => 0) [.recordBacklog] :=
  ⟨fun i fits => (Counter.counted_zero s.counters[i] fits).symm, NoticeUnit.raises_levels _ _ _,
    fun _ _ other => s.notices.entry_raises_of_ne _ (by simpa using other) _⟩

/-- R175: the occurrences of a release. -/
theorem released_counts :
    s.Counts (s.released v x c)
      (fun k => k.ofEvent .vehiclesReleased 1 + k.ofEvent .unmatchedVehicles v.unmatched.toNat) [.recordBacklog] := by
  have one := ((sent_counts s v x c).trans (countEvent_counts .vehiclesReleased 1 _) fun _ _ => rfl).of_eq
    (m := Counter.ofEvent .vehiclesReleased 1) fun _ => Nat.zero_add _
  unfold State.released
  split
  next unmatched =>
    rw [unmatched]
    exact one.trans (countEvent_counts .unmatchedVehicles 1 _) fun _ _ => rfl
  next matched =>
    rw [Bool.eq_false_of_not_eq_true matched]
    exact one.of_eq fun _ => by simp

/-- The occurrences touch the counters and the notices. -/
theorem released_eq :
    s.released v x c =
      { s.sent v x c with counters := (s.released v x c).counters, notices := (s.released v x c).notices } := by
  unfold State.released
  split
  · rw [countEvent, countEvent, updateCounters_eq, updateCounters_eq]
  · rw [countEvent, updateCounters_eq]

/-- R155: the step from 47 to 48 entries is one cause. -/
theorem released_recordBacklog :
    (s.released v x c).notices.entry .recordBacklog =
      (s.notices.entry .recordBacklog).after (s.notices.level .recordBacklog)
        (if s.link.records.length = 47 then [c.number.toNat] else []) := by
  have counted (e : CounterEvent) (u : State) :
      (countEvent e 1 u).notices.entry .recordBacklog = u.notices.entry .recordBacklog :=
    (countEvent_counts e 1 u).2.2 _ (by decide) (by simp)
  have sent := s.notices.entry_raises .recordBacklog (if s.link.records.length = 47 then [c.number.toNat] else [])
  unfold State.released
  split
  · rw [counted, counted]
    exact sent
  · rw [counted]
    exact sent

end

/-- The records behind the released vehicle's stay where they are (R78). -/
theorem AxleTracker.find_release (x : AxleTracker) {last j : Nat} (behind : last < j) :
    (x.release last).find j = x.find j := by
  unfold find release
  rw [List.find?_filter]
  refine congrArg (List.find? · x.queue) (funext fun a => ?_)
  simp only [decide_eq_true_eq, beq_iff_eq, Bool.decide_and]
  by_cases here : a.ordinal = j <;> simp [here, behind]

theorem State.releasable_of_ready {s : State} {v : Vehicle} {list : List Vehicle} {x : VehicleTotals}
    (head : s.asm.list = v :: list) (complete : v.state = .complete x) (resolved : v.isResolved = true)
    (room : s.link.records.length < 64) : s.releasable = some (v, x) := by
  unfold releasable
  simp only [head, complete, resolved, Bool.true_and, recordCapacity, decide_eq_true_eq, room, if_true]

theorem State.releasable_eq_none {s : State}
    (blocked :
      s.asm.list = [] ∨ 64 ≤ s.link.records.length ∨
        ∃ v list, s.asm.list = v :: list ∧ (v.isComplete = false ∨ v.isResolved = false)) :
    s.releasable = none := by
  cases releasable : s.releasable with
  | none => rfl
  | some r =>
    obtain ⟨head, complete, resolved, room⟩ := releasable_eq_some releasable
    rcases blocked with empty | full | ⟨v, list, held, formed | unresolved⟩
    · rw [empty] at head
      cases head
    · exact absurd room (Nat.not_lt.2 full)
    all_goals
      rw [held, List.head?_cons, Option.some.injEq] at head
      subst head
    · simp [Vehicle.isComplete, complete] at formed
    · rw [resolved] at unresolved
      cases unresolved

end Sys2Proof.Machine

open Sys2Proof Sys2Proof.Machine

/-- Settles O35: the release is what is sent, counted, and the consideration behind it, of which only vehicles formed and the
vehicles that records name are new. -/
theorem releaseSendsTheHeadVehicle : Obligations.ReleaseSendsTheHeadVehicle := by
  unfold Obligations.ReleaseSendsTheHeadVehicle
  refine ⟨fun s v list x c head complete resolved room context => ?_, fun s blocked => ?_⟩
  · have due := State.releasable_of_ready head complete resolved room
    have formed := considerFormation_formed (s.released v x c)
    have counts := released_counts s v x c
    have backlog := released_recordBacklog s v x c
    have eq := released_eq s v x c
    have tail : s.asm.list.tail = list := by rw [head]; rfl
    generalize target : considerFormation (s.released v x c) = t at formed
    generalize source : s.released v x c = m at formed counts backlog eq target
    have frame := formed.frame
    have counters : t.counters = m.counters := by rw [frame]
    have notices : t.notices = m.notices := by rw [frame]
    have list' : m.asm = { s.asm with list := list } := by rw [eq, ← tail]; rfl
    refine ⟨t, ?_, ?_, ?_, ?_, ?_, ?_, ?_, ?_, ?_, ?_, ?_, ?_, ?_, ⟨m, target.symm, ?_⟩, ?_⟩
    · show execVehicleRelease s = _
      unfold execVehicleRelease
      rw [due, ← target, ← source, ← releaseVehicle_eq context]
    · rw [frame, eq]
      simp only [State.sent, vehicleRecord, AxleTracker.recordsOf, List.filterMap_map]
      rfl
    · rw [frame, eq]
      rfl
    · obtain ⟨f, queue⟩ := formed.queue
      rw [queue, eq]
      intro a mem
      obtain ⟨b, held, rfl⟩ := List.mem_map.1 mem
      exact of_decide_eq_true (List.mem_filter.1 held).2
    · rw [frame, eq]
      rfl
    · rw [frame, eq]
      rfl
    · rw [frame, eq]
      rfl
    · obtain ⟨new, spans⟩ := formed.spans
      refine ⟨new.map Prod.fst, ?_⟩
      have := congrArg (List.map Prod.fst) spans
      rw [list'] at this
      simp only [List.map_append, List.map_map] at this
      exact this
    · rw [frame, eq]
      simp only [State.sent, TrainContext.countRelease]
      congr 3
      · split <;> simp
      · split <;> simp
      · split <;> simp
    · intro j a behind held
      obtain ⟨f, find⟩ := formed.find j
      refine ⟨f a, ?_⟩
      rw [find, eq]
      exact (congrArg (Option.map _) ((s.axles.find_release behind).trans held)).trans rfl
    · rw [frame, eq]
      rfl
    · exact counts.congr rfl rfl counters notices
    · rw [notices]
      exact backlog
    · rw [eq, frame, eq]
      simp only [State.sent, tail]
      rfl
    · rw [frame, eq]
      rfl
  · show execVehicleRelease s = _
    unfold execVehicleRelease
    rw [State.releasable_eq_none blocked]

end

section
/-! Identities: the Assembly List under an update of one vehicle, the append by the vehicle of its position, the resolution at a
completion and the expiry of a wait (R136, R146, R147, R149 to R151). -/

namespace Sys2Proof.Machine

/-! ## One vehicle of the list -/

section
variable {s : State} {q : Nat} {v : Vehicle}

theorem Assembler.sequence_of_find (held : s.asm.find q = some v) : v.sequence = q :=
  eq_of_beq (a := v.sequence) (List.find?_some (p := fun y : Vehicle => y.sequence == q) held)

theorem find_modifyVehicle (f : Vehicle → Vehicle) (keeps : ∀ y : Vehicle, (f y).sequence = y.sequence) :
    (modifyVehicle q f s).asm.find q = (s.asm.find q).map f := by
  show (s.asm.list.map fun y => if y.sequence = q then f y else y).find? (fun y => y.sequence == q) =
    (s.asm.list.find? fun y => y.sequence == q).map f
  induction s.asm.list with
  | nil => rfl
  | cons y l ih =>
    by_cases here : y.sequence = q
    · simp [here, keeps]
    · simpa [here] using ih

/-- The vehicles in ascending order: the vehicle found is the only one of its sequence. -/
theorem State.VehiclesOrdered.eq_of_sequence (ordered : s.VehiclesOrdered) (held : s.asm.find q = some v) {y : Vehicle}
    (mem : y ∈ s.asm.list) (same : y.sequence = q) : y = v :=
  List.inj_on_of_nodup_map (ordered.1.imp fun below => Nat.ne_of_lt below) mem (List.mem_of_find?_eq_some held)
    (same.trans (Assembler.sequence_of_find held).symm)

/-- The vehicle found put in place of itself changed. -/
theorem modifyVehicle_list (ordered : s.VehiclesOrdered) (held : s.asm.find q = some v) (f : Vehicle → Vehicle) :
    (modifyVehicle q f s).asm.list = s.asm.list.map fun y => if y.sequence = q then f v else y := by
  refine List.map_congr_left fun y mem => ?_
  split
  next same => rw [ordered.eq_of_sequence held mem same]
  · rfl

end

/-- A vehicle put into the list is the one changed there. -/
theorem map_replaced {w : Vehicle} {q : Nat} (same : w.sequence = q) (g : Vehicle → Vehicle) (l : List Vehicle) :
    ((l.map fun y => if y.sequence = q then w else y).map fun y => if y.sequence = q then g y else y) =
      l.map fun y => if y.sequence = q then g w else y := by
  rw [List.map_map]
  refine List.map_congr_left fun y _ => ?_
  by_cases here : y.sequence = q <;> simp [here, same]

theorem forceLowest_eq {front back : List Vehicle} {y : Vehicle} (none : ∀ z ∈ front, z.isWaiting = false)
    (waits : y.isWaiting = true) :
    forceLowest (front ++ y :: back) = front ++ y.resolveAbsent .idForced :: back := by
  induction front with
  | nil => simp [forceLowest, waits]
  | cons z front ih =>
    obtain ⟨first, others⟩ := List.forall_mem_cons.1 none
    rw [List.cons_append, forceLowest, first, if_neg (by decide), ih others, List.cons_append]

theorem typeMismatch_iff (e : ConsistEntry) (v : Vehicle) :
    typeMismatch e v = true ↔
      (∃ n, e.typeCode = some n ∧ n ≠ v.typeCode) ∨ ∃ n, e.kind = some n ∧ n ≠ v.kind := by
  unfold typeMismatch
  rw [Bool.or_eq_true]
  cases e.typeCode <;> cases e.kind <;> simp

/-- R149: a vehicle resolved PRESENT. -/
theorem Vehicle.resolvePresent_eq (e : ConsistEntry) (v : Vehicle) :
    v.resolvePresent e =
      { v with
        resolution := .present e.identity
        idFlags :=
          if (∃ n, e.typeCode = some n ∧ n ≠ v.typeCode) ∨ ∃ n, e.kind = some n ∧ n ≠ v.kind then
            v.idFlags ||| VehicleFlag.typeMismatch.mask
          else v.idFlags } := by
  unfold resolvePresent vehicleFlagIf
  simp only [typeMismatch_iff]
  split
  · rfl
  · rw [show v.idFlags ||| 0 = v.idFlags from BitVec.or_zero]

/-! ## The resolution at a completion (R149, R150) -/

/-- A vehicle completed, with its totals (R136). -/
def State.completed (s : State) (v : Vehicle) : Vehicle :=
  { v with state := .complete (vehicleTotals s.cal.limits v (s.axles.recordsOf v)) }

/-- The completed vehicle in place. -/
def State.totalled (s : State) (q : Nat) : State := modifyVehicle q s.completed s

theorem completeVehicle_eq (q : Nat) (s : State) : completeVehicle q s = resolveAtCompletion q (s.totalled q) := rfl

section
variable {s : State} {q : Nat} {w : Vehicle} (held : s.asm.find q = some w)
include held

theorem resolveAtCompletion_of_resolved (resolved : w.resolution ≠ .unresolved) : resolveAtCompletion q s = s := by
  unfold resolveAtCompletion
  rw [held]
  cases state : w.resolution with
  | unresolved => exact absurd state resolved
  | waiting _ => simp only [state]
  | present _ => simp only [state]
  | absent => simp only [state]

variable (unresolved : w.resolution = .unresolved)
include unresolved

theorem resolveAtCompletion_of_entry {e : ConsistEntry} (entry : entryAt s.consist q = some e) :
    (resolveAtCompletion q s).asm.list =
      s.asm.list.map fun y => if y.sequence = q then y.resolvePresent e else y := by
  unfold resolveAtCompletion
  simp only [held, unresolved, entry]
  split
  · refine List.map_congr_left fun y _ => ?_
    split
    next same =>
      unfold Vehicle.resolveFrom
      rw [same, entry]
    · rfl
  · rfl

variable (missing : entryAt s.consist q = none)
include missing

theorem resolveAtCompletion_of_ending (ending : s.train.state = .ending) :
    (resolveAtCompletion q s).asm.list =
      s.asm.list.map fun y => if y.sequence = q then y.resolveAbsent .idMissing else y := by
  unfold resolveAtCompletion
  simp only [held, unresolved, if_pos ending]
  refine List.map_congr_left fun y _ => ?_
  split
  next same =>
    unfold Vehicle.resolveFrom
    rw [same, missing]
  · rfl

theorem resolveAtCompletion_of_no_wait (running : s.train.state ≠ .ending) (wait : s.settings.idWait = 0) :
    resolveAtCompletion q s = modifyVehicle q (Vehicle.resolveAbsent .idTimeout) s := by
  unfold resolveAtCompletion
  simp only [held, unresolved, missing, if_neg running, if_pos wait]

theorem resolveAtCompletion_of_wait (running : s.train.state ≠ .ending) (wait : s.settings.idWait ≠ 0) :
    resolveAtCompletion q s = beginWait q s := by
  unfold resolveAtCompletion
  simp only [held, unresolved, missing, if_neg running, if_neg wait]

end

/-- A wait begun until a scan (R149). -/
def Vehicle.waitUntil (x : Scan) (v : Vehicle) : Vehicle := { v with resolution := .waiting x }

/-- While fewer than four wait, a wait begins (R149). -/
theorem beginWait_of_few {q : Nat} {s : State} (few : waitingCount s.asm.list < 4) :
    (beginWait q s).asm.list =
      s.asm.list.map fun y =>
        if y.sequence = q then y.waitUntil (s.rx.time + BitVec.ofNat 32 s.settings.idWait) else y := by
  have list : (if waitingCapacity ≤ waitingCount s.asm.list then forceLowest s.asm.list else s.asm.list) = s.asm.list :=
    if_neg (Nat.not_le.2 few)
  show (List.map _ (if waitingCapacity ≤ waitingCount s.asm.list then _ else _)) = _
  rw [list]
  rfl

/-- While four wait, the lowest is forced out first (R150). -/
theorem beginWait_of_four {q : Nat} {s : State} (four : 4 ≤ waitingCount s.asm.list) {front back : List Vehicle} {y : Vehicle}
    (split : s.asm.list = front ++ y :: back) (none : ∀ z ∈ front, z.isWaiting = false) (waits : y.isWaiting = true) :
    (beginWait q s).asm.list =
      (front ++ y.resolveAbsent .idForced :: back).map fun y =>
        if y.sequence = q then y.waitUntil (s.rx.time + BitVec.ofNat 32 s.settings.idWait) else y := by
  have list : (if waitingCapacity ≤ waitingCount s.asm.list then forceLowest s.asm.list else s.asm.list) =
      front ++ y.resolveAbsent .idForced :: back := by
    rw [if_pos (show waitingCapacity ≤ _ from four), split, forceLowest_eq none waits]
  show (List.map _ (if waitingCapacity ≤ waitingCount s.asm.list then _ else _)) = _
  rw [list]
  rfl

/-! ## A completion (R136, R149 to R151) -/

section
variable {s : State} {q : Nat} {v : Vehicle} (ordered : s.VehiclesOrdered) (held : s.asm.find q = some v)

theorem totalled_find (s : State) (q : Nat) : (s.totalled q).asm.find q = (s.asm.find q).map s.completed :=
  find_modifyVehicle _ fun _ => rfl

omit ordered in
include held in
theorem completed_sequence : (s.completed v).sequence = q := (Assembler.sequence_of_find held :)

include ordered held

theorem totalled_list :
    (s.totalled q).asm.list = s.asm.list.map fun y => if y.sequence = q then s.completed v else y :=
  modifyVehicle_list ordered held _

/-- An update of the completed vehicle in place. -/
theorem totalled_map (g : Vehicle → Vehicle) :
    ((s.totalled q).asm.list.map fun y => if y.sequence = q then g y else y) =
      s.asm.list.map fun y => if y.sequence = q then g (s.completed v) else y := by
  rw [totalled_list ordered held]
  exact map_replaced (completed_sequence held) g _

/-- The vehicle that completes did not wait. -/
theorem totalled_waitingCount : waitingCount (s.totalled q).asm.list = waitingCount s.asm.list := by
  rw [totalled_list ordered held]
  unfold waitingCount
  rw [List.filter_map, List.length_map]
  refine congrArg List.length (List.filter_congr fun y mem => ?_)
  rw [Function.comp_apply]
  split
  next same =>
    rw [ordered.eq_of_sequence held mem same]
    rfl
  · rfl

omit ordered in
theorem totalled_held : (s.totalled q).asm.find q = some (s.completed v) := by
  rw [totalled_find, held, Option.map_some]

theorem completeVehicle_of_resolved (resolved : v.resolution ≠ .unresolved) :
    (completeVehicle q s).asm.list = s.asm.list.map fun y => if y.sequence = q then s.completed v else y := by
  rw [completeVehicle_eq, resolveAtCompletion_of_resolved (totalled_held held) resolved]
  exact totalled_list ordered held

variable (unresolved : v.resolution = .unresolved)
include unresolved

theorem completeVehicle_of_entry {e : ConsistEntry} (entry : entryAt s.consist q = some e) :
    (completeVehicle q s).asm.list =
      s.asm.list.map fun y => if y.sequence = q then (s.completed v).resolvePresent e else y := by
  rw [completeVehicle_eq, resolveAtCompletion_of_entry (totalled_held held) unresolved entry]
  exact totalled_map ordered held _

variable (missing : entryAt s.consist q = none)
include missing

theorem completeVehicle_of_ending (ending : s.train.state = .ending) :
    (completeVehicle q s).asm.list =
      s.asm.list.map fun y => if y.sequence = q then (s.completed v).resolveAbsent .idMissing else y := by
  rw [completeVehicle_eq, resolveAtCompletion_of_ending (totalled_held held) unresolved missing ending]
  exact totalled_map ordered held _

theorem completeVehicle_of_no_wait (running : s.train.state ≠ .ending) (wait : s.settings.idWait = 0) :
    (completeVehicle q s).asm.list =
      s.asm.list.map fun y => if y.sequence = q then (s.completed v).resolveAbsent .idTimeout else y := by
  rw [completeVehicle_eq, resolveAtCompletion_of_no_wait (totalled_held held) unresolved missing running wait]
  exact totalled_map ordered held _

variable (running : s.train.state ≠ .ending) (wait : s.settings.idWait ≠ 0)

include running wait

theorem completeVehicle_of_few (few : waitingCount s.asm.list < 4) :
    (completeVehicle q s).asm.list =
      s.asm.list.map fun y =>
        if y.sequence = q then (s.completed v).waitUntil (s.rx.time + BitVec.ofNat 32 s.settings.idWait) else y := by
  rw [completeVehicle_eq, resolveAtCompletion_of_wait (totalled_held held) unresolved missing running wait,
    beginWait_of_few (by rwa [totalled_waitingCount ordered held])]
  exact totalled_map ordered held _

theorem completeVehicle_of_four (four : 4 ≤ waitingCount s.asm.list) {front back : List Vehicle} {y : Vehicle}
    (split : s.asm.list = front ++ y :: back) (none : ∀ z ∈ front, z.isWaiting = false) (waits : y.isWaiting = true)
    {begun : Vehicle → Vehicle}
    (begins : ∀ y, begun y =
      if y.sequence = q then (s.completed v).waitUntil (s.rx.time + BitVec.ofNat 32 s.settings.idWait) else y) :
    (completeVehicle q s).asm.list = front.map begun ++ y.resolveAbsent .idForced :: back.map begun := by
  have other : y.sequence ≠ q := by
    intro same
    rw [ordered.eq_of_sequence held (by simp [split]) same, Vehicle.isWaiting, unresolved] at waits
    cases waits
  have standing {z : Vehicle} (mem : z ∈ front) :
      (if z.sequence = q then s.completed v else z).isWaiting = false := by
    split
    · show v.isWaiting = false
      rw [Vehicle.isWaiting, unresolved]
    · exact none z mem
  have begin' : begun = fun y =>
      if y.sequence = q then (s.completed v).waitUntil (s.rx.time + BitVec.ofNat 32 s.settings.idWait) else y :=
    funext begins
  rw [completeVehicle_eq, resolveAtCompletion_of_wait (totalled_held held) unresolved missing running wait,
    beginWait_of_four (front := front.map fun y => if y.sequence = q then s.completed v else y) (y := y)
      (back := back.map fun y => if y.sequence = q then s.completed v else y)
      (by rwa [totalled_waitingCount ordered held]) ?_ ?_ waits]
  · rw [List.map_append, List.map_cons, begin']
    refine congrArg₂ (· ++ ·) (map_replaced (completed_sequence held) _ _)
      (congrArg₂ List.cons (if_neg other) ?_)
    exact map_replaced (completed_sequence held) _ _
  · rw [totalled_list ordered held, split, List.map_append, List.map_cons, if_neg other]
  · intro z mem
    obtain ⟨x, before, rfl⟩ := List.mem_map.1 mem
    exact standing before

end

/-! ## APPEND CONSIST (R146, R147) -/

section
variable (b n k : Byte) (id : List Byte)

/-- The conditions of R146 on the fields of a payload. -/
def consistChecks : List (Prop × Nat) :=
  [(id ≠ [] ∧ ∀ x ∈ id, 32 ≤ x.toNat ∧ x.toNat ≤ 126, 1), (b.getLsbD 0 = true → n ≠ 0, 2),
    (b.getLsbD 1 = true → 1 ≤ k.toNat ∧ k.toNat ≤ 3, 3)]

/-- The decided table of R146 is the table of its conditions. -/
theorem consistFault_conditions :
    (∀ f, consistFault (b :: n :: k :: id) = some f ↔ FirstFails (consistChecks b n k id) f) ∧
      (consistFault (b :: n :: k :: id) = none ↔ ∀ c ∈ consistChecks b n k id, c.1) := by
  have code : natAt (b :: n :: k :: id) 1 1 = n.toNat := Nat.zero_add _
  have kind : natAt (b :: n :: k :: id) 2 1 = k.toNat := Nat.zero_add _
  have absent (m : Nat) : (VehicleKind.ofCode m).isNone = true ↔ ¬(1 ≤ m ∧ m ≤ 3) := by
    rw [← VehicleKind.ofCode_isSome_iff, ← Option.not_isSome, Bool.not_eq_true', Bool.not_eq_true]
  have zero : n.toNat = 0 ↔ n = 0 := by rw [← BitVec.toNat_inj]; rfl
  have same : conditions
      [(!id.isEmpty && id.all fun c => inRange 32 126 c.toNat, 1), (!(b.getLsbD 0 && n.toNat == 0), 2),
        (!(b.getLsbD 1 && (VehicleKind.ofCode k.toNat).isNone), 3)] = consistChecks b n k id := by
    simp only [conditions, List.map_cons, List.map_nil, consistChecks, Bool.and_eq_true, Bool.not_eq_true',
      ← Bool.not_eq_true, List.isEmpty_iff, List.all_eq_true, inRange_iff, beq_iff_eq, ne_eq, zero, absent, not_and, Classical.not_imp, not_not]
  unfold consistFault
  rw [code, kind]
  exact ⟨fun f => (firstFailing_some_iff _ f).trans (by rw [← same]; rfl),
    (firstFailing_none_iff _).trans (by rw [← same]; rfl)⟩

end

/-- The bytes of an entry as fields (R181). -/
theorem consistBytes_eq (e : ConsistEntry) :
    consistBytes e =
      bitsByte [e.typeCode.isSome, e.kind.isSome] :: BitVec.ofNat 8 (e.typeCode.getD 0) ::
        BitVec.ofNat 8 ((e.kind.map VehicleKind.code).getD 0) :: e.identity := rfl

/-- An entry of R145 whose fields are in range. -/
structure ConsistEntry.InRange (e : ConsistEntry) : Prop where
  least : 1 ≤ e.identity.length
  most : e.identity.length ≤ 12
  printable : ∀ c ∈ e.identity, 32 ≤ c.toNat ∧ c.toNat ≤ 126
  code : ∀ n, e.typeCode = some n → 1 ≤ n ∧ n ≤ 255

theorem getLsbD_bitsByte_pair (a b : Bool) : (bitsByte [a, b]).getLsbD 0 = a ∧ (bitsByte [a, b]).getLsbD 1 = b := by
  cases a <;> cases b <;> decide

theorem toNat_kindByte (k : VehicleKind) : (BitVec.ofNat 8 k.code).toNat = k.code := by cases k <;> rfl

section
variable {e : ConsistEntry}

/-- R181: an entry reads back from its bytes. -/
theorem parseConsist_consistBytes (fits : ∀ n, e.typeCode = some n → n ≤ 255) : parseConsist (consistBytes e) = e := by
  obtain ⟨id, code, kind⟩ := e
  obtain ⟨bit0, bit1⟩ := getLsbD_bitsByte_pair code.isSome kind.isSome
  have codeAt : natAt (consistBytes ⟨id, code, kind⟩) 1 1 = (BitVec.ofNat 8 (code.getD 0)).toNat := Nat.zero_add _
  have kindAt : natAt (consistBytes ⟨id, code, kind⟩) 2 1 = (BitVec.ofNat 8 ((kind.map VehicleKind.code).getD 0)).toNat :=
    Nat.zero_add _
  unfold parseConsist
  rw [codeAt, kindAt]
  refine congrArg₂ (ConsistEntry.mk id) ?_ ?_
  · refine (congrArg (if · = true then _ else _) bit0).trans ?_
    cases code with
    | none => rfl
    | some n =>
      have := fits n rfl
      simp only [Option.isSome_some, if_true, Option.getD_some, BitVec.toNat_ofNat]
      rw [Nat.mod_eq_of_lt (by omega)]
  · refine (congrArg (if · = true then _ else _) bit1).trans ?_
    cases kind with
    | none => rfl
    | some k =>
      simp only [Option.isSome_some, if_true, Option.map_some, Option.getD_some]
      rw [toNat_kindByte, VehicleKind.ofCode_code]

/-- R146: an entry in its ranges passes. -/
theorem ConsistEntry.InRange.passes (ranges : e.InRange) : consistFault (consistBytes e) = none := by
  obtain ⟨bit0, bit1⟩ := getLsbD_bitsByte_pair e.typeCode.isSome e.kind.isSome
  rw [consistBytes_eq, (consistFault_conditions _ _ _ _).2]
  simp only [consistChecks, List.forall_mem_cons, bit0, bit1]
  refine ⟨⟨List.ne_nil_of_length_pos ranges.least, ranges.printable⟩, fun held => ?_, fun held => ?_, by simp⟩
  · obtain ⟨n, code⟩ := Option.isSome_iff_exists.1 held
    have := ranges.code n code
    rw [code, Option.getD_some, ne_eq, ← BitVec.toNat_inj, BitVec.toNat_ofNat]
    show ¬n % 256 = 0
    omega
  · obtain ⟨k, kind⟩ := Option.isSome_iff_exists.1 held
    rw [kind, Option.map_some, Option.getD_some, toNat_kindByte, ← VehicleKind.ofCode_isSome_iff, VehicleKind.ofCode_code]
    rfl

end

section
variable {s : State} {r : Request} {e : ConsistEntry}

theorem appendConsist_of_ending (ending : s.train.state = .ending) : appendConsist r s = answer r .busyTrain [] s :=
  if_pos ending

variable (running : s.train.state ≠ .ending)
include running

theorem appendConsist_of_length (length : r.payload.length < 3 ∨ 15 < r.payload.length) :
    appendConsist r s = answer r .malformed [] s :=
  (if_neg running).trans (if_pos (inRange_eq_false length))

theorem appendConsist_of_fault {f : Nat} (least : 3 ≤ r.payload.length) (most : r.payload.length ≤ 15)
    (fault : consistFault r.payload = some f) : appendConsist r s = answerBadValue r f s := by
  have length : inRange 3 15 r.payload.length = true := (inRange_iff _ _ _).2 ⟨least, most⟩
  unfold appendConsist
  rw [if_neg running, length, if_neg (by decide), fault]

theorem appendConsist_of_pass (payload : r.payload = consistBytes e) (ranges : e.InRange) :
    appendConsist r s = if consistCapacity ≤ s.consist.length then answer r .full [] s else appendEntry r e s := by
  have most := ranges.most
  have bytes : (consistBytes e).length = 3 + e.identity.length := by
    rw [consistBytes_eq]
    simp only [List.length_cons]
    omega
  have length : inRange 3 15 (consistBytes e).length = true := (inRange_iff _ _ _).2 (by omega)
  unfold appendConsist
  rw [if_neg running, payload, length, if_neg (by decide), ranges.passes, parseConsist_consistBytes fun n code =>
    (ranges.code n code).2]

end

/-- The entry stored at the tail (R146, step 5). -/
def State.stored (s : State) (e : ConsistEntry) : State := { s with consist := s.consist ++ [e] }

section
variable {s : State} (r : Request) (e : ConsistEntry)

theorem appendEntry_of_no_train (out : s.train.state = .idle ∨ s.train.state = .ignoring) :
    appendEntry r e s = answer r .ok (natBytes 2 (s.consist.length + 1)) (s.stored e) :=
  if_neg (by rcases out with out | out <;> rw [out] <;> decide)

variable (train : s.train.state = .running ∨ s.train.state = .standing)
include train

theorem appendEntry_of_notResolved (found : s.appendCase (s.consist.length + 1) = .notResolved) :
    appendEntry r e s = answer r .ok (natBytes 2 (s.consist.length + 1)) (s.stored e) := by
  refine (if_pos train).trans ?_
  rw [found]
  rfl

theorem appendEntry_of_waiting (found : s.appendCase (s.consist.length + 1) = .waiting) :
    appendEntry r e s =
      answer r .ok (natBytes 2 (s.consist.length + 1))
        (modifyVehicle (s.consist.length + 1) (Vehicle.resolvePresent e) (s.stored e)) := by
  refine (if_pos train).trans ?_
  rw [found]
  rfl

theorem appendEntry_of_absent {c : TrainContext} (context : s.train.ctx = some c)
    (found : s.appendCase (s.consist.length + 1) = .resolvedAbsent) :
    appendEntry r e s =
      answer r .late (natBytes 2 (s.consist.length + 1))
        { s.stored e with train := { s.train with ctx := some { c with consistLate := c.consistLate + 1 } } } := by
  refine (if_pos train).trans ?_
  rw [found]
  simp only [modifyCtx, context, Option.map_some]
  rfl

end

section
variable {s : State} {p : Nat}

theorem State.appendCase_of_released {c : TrainContext} (none : s.asm.find p = none) (context : s.train.ctx = some c) :
    s.appendCase p = if p ≤ c.vehiclesReleased.toNat then .resolvedAbsent else .notResolved := by
  unfold appendCase
  rw [none, context]
  rfl

variable {v : Vehicle} (held : s.asm.find p = some v)
include held

theorem State.appendCase_of_unresolved (unresolved : v.resolution = .unresolved) : s.appendCase p = .notResolved := by
  unfold appendCase
  simp only [held, unresolved]

theorem State.appendCase_of_waiting {x : Scan} (waits : v.resolution = .waiting x) : s.appendCase p = .waiting := by
  unfold appendCase
  simp only [held, waits]

theorem State.appendCase_of_absent (absent : v.resolution = .absent) : s.appendCase p = .resolvedAbsent := by
  unfold appendCase
  simp only [held, absent]

end

/-- TYPE_MISMATCH of a vehicle resolved PRESENT (R149). -/
theorem Vehicle.typeMismatch_resolvePresent (e : ConsistEntry) (v : Vehicle) :
    hasVehicleFlag (v.resolvePresent e).idFlags .typeMismatch = true ↔
      hasVehicleFlag v.idFlags .typeMismatch = true ∨
        (∃ n, e.typeCode = some n ∧ n ≠ v.typeCode) ∨ ∃ n, e.kind = some n ∧ n ≠ v.kind := by
  rw [resolvePresent, hasVehicleFlag_or, hasVehicleFlag_vehicleFlagIf, Bool.or_eq_true, ← typeMismatch_iff]
  simp

end Sys2Proof.Machine

open Sys2Proof Sys2Proof.Machine

/-- Settles O34: the order of R146 is that of `appendConsist`, the cases of R147 those of `appendCase`; a completion puts the
completed vehicle in its place and resolves it there, the list being in order; a wait expires when its scan has come. -/
theorem identitiesAreAppendedOrTimeOut : Obligations.IdentitiesAreAppendedOrTimeOut := by
  unfold Obligations.IdentitiesAreAppendedOrTimeOut
  refine ⟨fun s r rest e p can code position => ?_, fun s t q v w ordered held done total => ?_,
    fun s q v x held waits => ⟨fun done => ?_, fun ahead => ?_⟩⟩
  · have runs {t : State} (eq : appendConsist r { s with requests := rest } = t) :
        exec .appendConsist s = .next (boundary t) :=
      congrArg Host.Outcome.next ((can.onHead (by simp [code])).trans (congrArg boundary eq))
    refine ⟨fun ending => runs (appendConsist_of_ending ending),
      fun running length => runs (appendConsist_of_length running length),
      fun b n k id f running payload most fails => runs ?_, fun running payload some most printable codes => ?_⟩
    · refine appendConsist_of_fault (s := { s with requests := rest }) running ?_ ?_ ?_
      · simp [payload]
      · simp only [payload, List.length_cons]
        omega
      · rw [payload]
        exact ((consistFault_conditions b n k id).1 f).2 fails
    have ranges : e.InRange := ⟨some, most, printable, codes⟩
    subst position
    have passes := appendConsist_of_pass (s := { s with requests := rest }) running payload ranges
    refine ⟨fun full => runs (passes.trans (if_pos full)), fun room => ?_⟩
    have stores {t : State} (eq : appendEntry r e { s with requests := rest } = t) :
        exec .appendConsist s = .next (boundary t) :=
      runs (passes.trans ((if_neg (Nat.not_le.2 room)).trans eq))
    refine ⟨fun out => stores (appendEntry_of_no_train r e out), fun train => ⟨fun c none context => ?_,
      fun v held unresolved => stores (appendEntry_of_notResolved r e train (State.appendCase_of_unresolved held unresolved)),
      fun v x held waits => ?_, fun v c held absent context =>
        stores (appendEntry_of_absent (s := { s with requests := rest }) r e train context (State.appendCase_of_absent held absent))⟩⟩
    · have found := State.appendCase_of_released (s := { s with requests := rest }) none context
      exact ⟨fun ahead => stores (appendEntry_of_notResolved r e train (found.trans (if_neg (Nat.not_le.2 ahead)))),
        fun released => stores (appendEntry_of_absent (s := { s with requests := rest }) r e train context (found.trans (if_pos released)))⟩
    · refine ⟨modifyVehicle (s.consist.length + 1) (Vehicle.resolvePresent e) (s.stored e),
        stores (appendEntry_of_waiting r e train (State.appendCase_of_waiting held waits)), rfl, v.resolvePresent e, ?_, rfl,
        rfl, v.typeMismatch_resolvePresent e⟩
      rw [find_modifyVehicle (s := s.stored e) (Vehicle.resolvePresent e) fun _ => rfl]
      exact congrArg (Option.map _) held
  · have total : w = s.completed v := total
    subst total done
    refine ⟨(completeVehicle_listOnly q s).frame, completeVehicle_of_resolved ordered held, fun unresolved =>
      ⟨fun e entry => ?_, fun missing => ⟨completeVehicle_of_ending ordered held unresolved missing,
        completeVehicle_of_no_wait ordered held unresolved missing, fun begun running wait begins => ⟨fun few => ?_,
          fun front y back four split none waits =>
            completeVehicle_of_four ordered held unresolved missing running wait four split none waits begins⟩⟩⟩⟩
    · rw [completeVehicle_of_entry ordered held unresolved entry, Vehicle.resolvePresent_eq]
      rfl
    · rw [completeVehicle_of_few ordered held unresolved missing running wait few]
      exact List.map_congr_left fun y _ => (begins y).symm
  · refine ⟨modifyVehicle q (Vehicle.resolveAbsent .idTimeout) s, ?_, rfl,
      (modifyVehicle_listOnly q (Vehicle.resolveAbsent .idTimeout) s fun _ => rfl).sequences, ?_⟩
    · refine congrArg Host.Outcome.next (if_pos ?_)
      rw [held, Option.map_some, Option.getD_some, Vehicle.waitOver, waits]
      exact (atOrBefore_iff _ _).2 done
    · rw [find_modifyVehicle (Vehicle.resolveAbsent .idTimeout) fun _ => rfl, held]
      rfl
  · refine congrArg Host.Outcome.next (if_neg ?_)
    rw [held, Option.map_some, Option.getD_some, Vehicle.waitOver, waits]
    exact fun done => absurd ((atOrBefore_iff _ _).1 done) (not_le.2 ahead)

end

section
/-! The entry into ENDING and its two flushes, and the passages that find no train in progress (R49 to R51, R57 to R61, R63, R79,
R143, R144, R152). -/

namespace Sys2Proof.Machine

/-! ## The entry into ENDING (R59, R152) -/

/-- The train ended: ENDING with its reason and end scan, the timer stopped, pair units and Window Lists emptied, waiting
identities resolved (R59, R152). -/
def State.ended (s : State) (reason : EndReason) : State :=
  { s with
    train :=
      { s.train with
        state := .ending
        ctx := s.train.ctx.map fun c => { c with endReason := some reason, endScan := some s.rx.time }
        quiet := none }
    west := { s.west with pending := none }
    east := { s.east with pending := none }
    zones := (emptyWindows s).zones
    asm := { s.asm with list := s.asm.list.map (Vehicle.resolveAtEnding s.consist) } }

theorem ended_windows (s : State) (reason : EndReason) (z : Fin 4) :
    (s.ended reason).zones[z] = { s.zones[z] with windows := [] } :=
  mapZones_get (fun _ u => u.empty) _ z

/-- The entry into ENDING is the end of the train and a flush. -/
theorem enterEnding_eq (s : State) (reason : EndReason) :
    enterEnding reason s = if reason = .quiet then flushQuiet (s.ended reason) else flushAbort (s.ended reason) := by
  unfold State.ended
  rw [show Vehicle.resolveAtEnding s.consist = fun v => if v.isWaiting then v.resolveFrom s.consist .idMissing else v from
    funext (Vehicle.resolveAtEnding_eq s.consist)]
  rfl

theorem enterEnding_quiet (s : State) : enterEnding .quiet s = flushQuiet (s.ended .quiet) := enterEnding_eq s .quiet

theorem enterEnding_of_ne (s : State) {reason : EndReason} (abort : reason ≠ .quiet) :
    enterEnding reason s = flushAbort (s.ended reason) := (enterEnding_eq s reason).trans (if_neg abort)

theorem Vehicle.resolveAtEnding_keeps (list : List ConsistEntry) (v : Vehicle) :
    (v.resolveAtEnding list).span = v.span ∧ (v.resolveAtEnding list).state = v.state ∧
      (v.resolveAtEnding list).isWaiting = false := by
  unfold resolveAtEnding
  split
  · cases entryAt list v.sequence <;> exact ⟨rfl, rfl, rfl⟩
  next free => exact ⟨rfl, rfl, Bool.eq_false_of_not_eq_true free⟩

theorem Vehicle.resolveAtEnding_isComplete (list : List ConsistEntry) (v : Vehicle) :
    (v.resolveAtEnding list).isComplete = v.isComplete := by
  unfold isComplete
  rw [(v.resolveAtEnding_keeps list).2.1]

theorem Vehicle.resolveAtEnding_last (list : List ConsistEntry) (v : Vehicle) : (v.resolveAtEnding list).last = v.last := by
  have spans := (v.resolveAtEnding_keeps list).1
  simp only [span, Prod.mk.injEq] at spans
  unfold last
  rw [spans.2.1, spans.2.2]

theorem filter_isComplete_resolved (list : List ConsistEntry) (l : List Vehicle) :
    (l.map (Vehicle.resolveAtEnding list)).filter Vehicle.isComplete =
      (l.filter Vehicle.isComplete).map (Vehicle.resolveAtEnding list) := by
  rw [List.filter_map]
  refine congrArg _ (List.filter_congr fun v _ => ?_)
  exact v.resolveAtEnding_isComplete list

/-! ## The flush of an abort (R60, R79, R143) -/

/-- The last ordinal kept is that of the newest COMPLETE vehicle, which the resolution of identities leaves. -/
theorem ended_keptUpTo (s : State) (reason : EndReason) : (s.ended reason).keptUpTo = s.keptUpTo := by
  unfold State.keptUpTo State.ended
  rw [filter_isComplete_resolved, List.getLast?_map, Option.map_map,
    show Vehicle.last ∘ Vehicle.resolveAtEnding s.consist = Vehicle.last from
      funext (Vehicle.resolveAtEnding_last s.consist)]

/-- An abort of a train as one step (R58 to R60). -/
theorem abortWith_eq (s : State) {reason : EndReason} (abort : reason ≠ .quiet) :
    abortWith reason s = flushAbort ((raiseCause .trainAborted reason.code s).ended reason) := enterEnding_of_ne _ abort

/-- An abort reads and writes nothing of the Request Buffer. -/
theorem abortWith_requests (s : State) {reason : EndReason} (abort : reason ≠ .quiet) (rest : List Request) :
    abortWith reason { s with requests := rest } = { abortWith reason s with requests := rest } := by
  rw [abortWith_eq _ abort, abortWith_eq _ abort]
  simp only [flushAbort, discardAbove, modifyCtx, State.ended, raiseCause, emptyWindows, mapZones, State.keptUpTo]
  rfl

/-- The flush of an abort in a context (R60, R79, R143). -/
theorem flushAbort_eq (s : State) {c : TrainContext} (context : s.train.ctx = some c) :
    flushAbort s =
      { s with
        train :=
          { s.train with
            ctx :=
              some
                { c with
                  axlesDiscarded :=
                    c.axlesDiscarded +
                      BitVec.ofNat 32
                        (s.axles.queue.length - (s.axles.queue.filter fun a => decide (a.ordinal ≤ s.keptUpTo)).length)
                  vehiclesDiscarded :=
                    c.vehiclesDiscarded + BitVec.ofNat 32 (s.asm.list.filter fun v => !v.isComplete).length } }
        asm := { s.asm with list := s.asm.list.filter Vehicle.isComplete }
        axles :=
          { s.axles with
            queue := s.axles.queue.filter fun a => decide (a.ordinal ≤ s.keptUpTo)
            highest := min s.axles.highest (max s.keptUpTo (s.axles.lowestHeld - 1)) } } := by
  simp only [flushAbort, discardAbove, modifyCtx, context, Option.map_some]

theorem length_filter_isComplete (l : List Vehicle) :
    (l.filter fun v => !v.isComplete).length = l.length - (l.filter Vehicle.isComplete).length := by
  have := List.length_eq_length_filter_add (l := l) Vehicle.isComplete
  omega

/-! ## The flush of a train ending with QUIET (R144) -/

theorem AxleTracker.chooseType_take (x : AxleTracker) {flush : Bool} {k : Nat} {types : List (Option VehicleType)}
    {t : VehicleType} {u : Bool} (choice : x.chooseType flush k types = .take t u) : x.judge flush k t = .fits u := by
  induction types with
  | nil => cases choice
  | cons e types ih =>
    cases e with
    | none => exact ih choice
    | some y =>
      unfold chooseType at choice
      split at choice
      · exact ih choice
      · cases choice
      next fits =>
        cases choice
        exact fits

/-- R144: a type that fits at the flush ends with an ordinal entered. -/
theorem AxleTracker.judge_last (x : AxleTracker) {k : Nat} {t : VehicleType} {u : Bool} (fits : x.judge true k t = .fits u) :
    k + t.axles - 1 ≤ x.lastOn := by
  by_cases fails : x.Fails k t
  · rw [x.judge_of_fails fails] at fits
    cases fits
  · rw [x.judge_of_passes fails, if_pos rfl] at fits
    split at fits
    next entered => exact entered
    · cases fits

/-- R144: a split at the flush ends with an ordinal entered. -/
theorem AxleTracker.split_last (x : AxleTracker) {gap k n i : Nat} {r : Nat × Bool} (least : 1 ≤ i)
    (entered : k + i - 1 ≤ x.lastOn) (split : x.split true gap k n i = some r) : k + r.1 - 1 ≤ x.lastOn := by
  induction n generalizing i with
  | zero => cases split
  | succ n ih =>
    unfold AxleTracker.split at split
    split at split
    next here =>
      rw [x.entered_iff] at here
      split at split
      next eight =>
        cases split
        rwa [eight] at entered
      split at split
      · cases split
        exact entered
      · split at split
        · cases split
          exact entered
        · exact ih (by omega) (by omega) split
    · cases split
      exact entered

/-- A vehicle formed at the flush of a train that ends with QUIET ends with an ordinal entered (R144). -/
theorem formable_last {s : State} {v : Vehicle} (formable : s.formable = some v) (flush : s.quietFlush = true) :
    v.last ≤ s.axles.lastOn := by
  obtain ⟨-, -, -, -, -, -, entered⟩ := formable_eq_some formable
  rw [s.axles.entered_iff] at entered
  unfold State.formable at formable
  dsimp only at formable
  rw [flush] at formable
  split at formable
  · split at formable
    · cases formable
    next t u choice =>
      cases formable
      exact s.axles.judge_last (s.axles.chooseType_take choice)
    · obtain ⟨r, split, rfl⟩ := Option.map_eq_some_iff.1 formable
      exact s.axles.split_last (k := s.asm.firstFree) (le_refl 1) (by omega) split
  · cases formable

theorem formVehicle_ordered {s : State} {v : Vehicle} (formable : s.formable = some v) (ordered : s.VehiclesOrdered) :
    (placeVehicle v s).VehiclesOrdered ∧ (formVehicle v s).VehiclesOrdered := by
  obtain ⟨sequence, -, -, unresolved, room, -⟩ := formable_eq_some formable
  have placed : Acts s (placeVehicle v s) :=
    (Act.form v sequence (by simp [Vehicle.isWaiting, unresolved]) room).acts.trans
      (AxleTracker.assign_acts v (some v.sequence) _)
  simp only [vehiclesOrdered_iff] at ordered ⊢
  exact ⟨placed.keep (P := fun s => ListOrdered s.asm.list s.asm.nextSeq) Act.listOrdered ordered,
    (formVehicle_acts formable).keep (P := fun s => ListOrdered s.asm.list s.asm.nextSeq) Act.listOrdered ordered⟩

/-- A vehicle is COMPLETE and its identity resolved. -/
abbrev Vehicle.Done (v : Vehicle) : Prop := v.isComplete = true ∧ v.isResolved = true

/-- A vehicle formed at the flush stands at the tail, COMPLETE and resolved at once (R133, R144, R149). -/
theorem formVehicle_quiet {s : State} {v : Vehicle} (formable : s.formable = some v) (ending : s.train.state = .ending)
    (flush : s.quietFlush = true) (empty : s.axles.lastOn < s.axles.firstOn) (ordered : s.VehiclesOrdered) :
    ∃ w, (formVehicle v s).asm.list = s.asm.list ++ [w] ∧ w.Done := by
  obtain ⟨sequence, -, -, unresolved, -⟩ := formable_eq_some formable
  have placed := (formVehicle_ordered formable ordered).1
  have held : (placeVehicle v s).asm.find v.sequence = some v := by
    unfold placeVehicle Assembler.find
    rw [List.find?_append, List.find?_eq_none.2, Option.none_or]
    · simp
    · intro y mem
      have := ordered.2.1 y mem
      simp only [beq_iff_eq, sequence]
      omega
  have cleared : v.last < s.axles.firstOn := (formable_last formable flush).trans_lt empty
  have put (w : Vehicle) :
      ((placeVehicle v s).asm.list.map fun y => if y.sequence = v.sequence then w else y) = s.asm.list ++ [w] := by
    unfold placeVehicle
    rw [List.map_append, List.map_singleton, if_pos rfl]
    refine congrArg (· ++ [w]) ((List.map_congr_left fun y mem => ?_).trans (List.map_id _))
    have := ordered.2.1 y mem
    rw [if_neg (by omega), id]
  rw [formVehicle_eq, if_pos cleared]
  cases entry : entryAt (placeVehicle v s).consist v.sequence with
  | some e =>
    rw [completeVehicle_of_entry placed held unresolved entry, put]
    exact ⟨_, rfl, rfl, rfl⟩
  | none =>
    rw [completeVehicle_of_ending placed held unresolved entry ending, put]
    exact ⟨_, rfl, rfl, rfl⟩

/-- The flush forms COMPLETE, resolved vehicles behind those of the list (R144). -/
theorem considerFrom_quiet (n : Nat) {s : State} (ending : s.train.state = .ending) (flush : s.quietFlush = true)
    (empty : s.axles.lastOn < s.axles.firstOn) (ordered : s.VehiclesOrdered) :
    ∃ formed, (considerFrom n s).asm.list = s.asm.list ++ formed ∧ ∀ v ∈ formed, v.Done := by
  induction n generalizing s with
  | zero => exact ⟨[], (List.append_nil _).symm, by simp⟩
  | succ n ih =>
    unfold considerFrom
    split
    next v formable =>
      have frame := (formVehicle_formed v s).frame
      have train : (formVehicle v s).train = s.train := by rw [frame]
      have bounds : (formVehicle v s).axles.lastOn = s.axles.lastOn ∧ (formVehicle v s).axles.firstOn = s.axles.firstOn := by
        rw [frame]
        exact ⟨rfl, rfl⟩
      obtain ⟨w, first, done⟩ := formVehicle_quiet formable ending flush empty ordered
      obtain ⟨formed, list, all⟩ := ih (s := formVehicle v s) (by rw [train, ending])
        (by unfold State.quietFlush; rw [train]; exact flush) (by rw [bounds.1, bounds.2]; exact empty)
        (formVehicle_ordered formable ordered).2
      refine ⟨w :: formed, ?_, ?_⟩
      · rw [list, first, List.append_assoc, List.singleton_append]
      · exact List.forall_mem_cons.2 ⟨done, all⟩
    · exact ⟨[], (List.append_nil _).symm, by simp⟩

/-! ## Passages outside a running train (R49 to R51) -/

theorem Passage.entryType_eastbound {p : Passage} (first : p.first = .w1) (second : p.second = .w2) :
    p.entryType = some .eastbound := by
  unfold entryType
  rw [first, second]

theorem Passage.entryType_westbound {p : Passage} (first : p.first = .e2) (second : p.second = .e1) :
    p.entryType = some .westbound := by
  unfold entryType
  rw [first, second]

theorem Passage.entryType_none {p : Passage} (east : ¬(p.first = .w1 ∧ p.second = .w2))
    (west : ¬(p.first = .e2 ∧ p.second = .e1)) : p.entryType = none := by
  unfold entryType
  split
  next first second => exact absurd ⟨first, second⟩ east
  next first second => exact absurd ⟨first, second⟩ west
  · rfl

end Sys2Proof.Machine

open Sys2Proof Sys2Proof.Machine

/-- Settles O18: each state of the Train Controller takes the passage by its own operation. -/
theorem passagesOutsideARunningTrain : Obligations.PassagesOutsideARunningTrain := by
  unfold Obligations.PassagesOutsideARunningTrain
  intro s p
  have taken {t : State} (idle : s.train.state = .idle) (eq : passageInIdle p s = t) : takePassage p s = t := by
    unfold takePassage
    rw [idle]
    exact eq
  refine ⟨fun d idle order => ?_, fun idle east west => taken idle ?_, fun c ending context => ?_, fun ignoring => ?_⟩
  · have entry : p.entryType = some d := by
      rcases order with ⟨first, second, rfl⟩ | ⟨first, second, rfl⟩
      · exact Passage.entryType_eastbound first second
      · exact Passage.entryType_westbound first second
    refine ⟨fun ready => taken idle ?_, fun notReady => taken idle ?_⟩
    · unfold passageInIdle
      rw [entry]
      exact if_pos ready
    · unfold passageInIdle
      rw [entry]
      exact if_neg (by rw [notReady]; decide)
  · unfold passageInIdle
    rw [Passage.entryType_none east west]
  · unfold takePassage
    rw [ending]
    unfold passageInEnding modifyCtx
    rw [context]
    rfl
  · unfold takePassage
    rw [ignoring]
    rfl

/-- Settles O24: the flush forms from the state whose train has ended, and each vehicle formed there ends on an axle entered,
which the section has left. -/
theorem quietExpiryEndsTheTrain : Obligations.QuietExpiryEndsTheTrain := by
  unfold Obligations.QuietExpiryEndsTheTrain
  intro s c due running context empty
  have off : s.axles.onSection = false := decide_eq_false (Nat.not_le.2 empty)
  have windows := ended_windows s .quiet
  have expires : quietExpiry s = considerFormation (discardAbove s.axles.lastOn (s.ended .quiet)) := by
    unfold quietExpiry
    rw [running]
    simp only [off, Bool.false_eq_true, if_false]
    exact enterEnding_quiet s
  generalize source : discardAbove s.axles.lastOn (s.ended .quiet) = m at expires
  have discarded :
      s.axles.queue.length - (s.axles.queue.filter fun a => decide (a.ordinal ≤ s.axles.lastOn)).length =
        (s.axles.queue.filter fun a => decide (s.axles.lastOn < a.ordinal)).length := by
    have split := List.length_eq_length_filter_add (l := s.axles.queue) fun a => decide (a.ordinal ≤ s.axles.lastOn)
    simp only [← decide_not, Nat.not_le] at split
    omega
  have eq : m =
      { s with
        train :=
          { s.train with
            state := .ending
            ctx :=
              some
                { c with
                  endReason := some .quiet, endScan := some s.rx.time
                  axlesDiscarded :=
                    c.axlesDiscarded +
                      BitVec.ofNat 32 (s.axles.queue.filter fun a => decide (s.axles.lastOn < a.ordinal)).length }
            quiet := none }
        west := { s.west with pending := none }
        east := { s.east with pending := none }
        zones := (s.ended .quiet).zones
        asm := { s.asm with list := s.asm.list.map (Vehicle.resolveAtEnding s.consist) }
        axles :=
          { s.axles with
            queue := s.axles.queue.filter fun a => decide (a.ordinal ≤ s.axles.lastOn)
            highest := min s.axles.highest (max s.axles.lastOn (s.axles.lowestHeld - 1)) } } := by
    rw [← source, ← discarded]
    simp only [discardAbove, modifyCtx, State.ended, context, Option.map_some]
  have formed := considerFormation_formed m
  have frame := formed.frame
  generalize target : considerFormation m = t at expires formed frame
  refine ⟨t, ?_, ?_, ?_, ?_, ?_, ?_, ?_, fun z => ?_, fun a mem => ?_, ?_, ?_, ?_, ?_, ?_,
    ⟨m, _, target.symm, rfl, ?_, fun ordered => ?_⟩, ?_⟩
  · show execQuietTimerExpiry s = _
    unfold execQuietTimerExpiry
    rw [if_pos due, expires]
  · rw [frame, eq]
  · rw [frame, eq]
  · rw [frame, eq]
  · rw [frame, eq]
  · rw [frame, eq]
  · rw [frame, eq]
  · rw [frame, eq]
    exact windows z
  · obtain ⟨f, queue⟩ := formed.queue
    rw [queue, eq] at mem
    obtain ⟨b, held, rfl⟩ := List.mem_map.1 mem
    exact of_decide_eq_true (List.mem_filter.1 held).2
  · rw [frame, eq]
  · rw [frame, eq]
  · rw [frame, eq]
  · rw [frame, eq]
  · rw [frame, eq]
  · rw [frame, eq]
  · have list : m.asm.list = s.asm.list.map (Vehicle.resolveAtEnding s.consist) := by rw [eq]
    have flush : m.quietFlush = true := by rw [eq]; rfl
    have kept : m.VehiclesOrdered := by
      rw [vehiclesOrdered_iff] at ordered ⊢
      rw [eq]
      refine ordered.map (fun v => congrArg Prod.fst (v.resolveAtEnding_keeps s.consist).1) ?_
      refine (waitingCount_map_le (fun v waits => ?_) _).trans ordered.waiting
      rw [(v.resolveAtEnding_keeps s.consist).2.2] at waits
      cases waits
    have := considerFrom_quiet 16 (s := m) (by rw [eq]) flush (by rw [eq]; exact empty) kept
    rw [← list, ← target]
    exact this
  · rw [frame, eq]

/-- Settles O25: an abort is the end of the train and the flush that keeps the COMPLETE vehicles and their axles. -/
theorem abortsKeepCompleteVehiclesOnly : Obligations.AbortsKeepCompleteVehiclesOnly := by
  unfold Obligations.AbortsKeepCompleteVehiclesOnly
  refine ⟨fun s r rest can code => ?_, fun s t reason c kept abort context eq newest none => ?_⟩
  · have runs {t : State} (eq : abortTrain r { s with requests := rest } = t) :
        exec .abortTrain s = .next (boundary t) :=
      congrArg Host.Outcome.next ((can.onHead (by simp [code])).trans (congrArg boundary eq))
    refine ⟨fun carries => runs (withoutPayload_of_ne carries), fun empty => ⟨fun train => ?_, fun run stand => ?_⟩⟩
    · refine runs ((withoutPayload_of_nil empty).trans ((if_pos train).trans ?_))
      rw [abortWith_requests s (by decide)]
      rfl
    · exact runs ((withoutPayload_of_nil empty).trans (if_neg (not_or.2 ⟨run, stand⟩)))
  · have upTo : s.keptUpTo = kept := by
      unfold State.keptUpTo
      cases last : (s.asm.list.filter Vehicle.isComplete).getLast? with
      | none => exact (none (List.getLast?_eq_none_iff.1 last)).symm
      | some v => exact (newest v last).symm
    have windows := ended_windows (raiseCause .trainAborted reason.code s) reason
    rw [abortWith_eq s abort, flushAbort_eq _ (c := { c with endReason := some reason, endScan := some s.rx.time })
      (congrArg (Option.map _) context), ended_keptUpTo, show (raiseCause _ _ s).keptUpTo = kept from upTo,
      length_filter_isComplete] at eq
    generalize ((raiseCause .trainAborted reason.code s).ended reason).zones = zones at eq windows
    have list : t.asm.list = (s.asm.list.filter Vehicle.isComplete).map (Vehicle.resolveAtEnding s.consist) := by
      rw [eq, ← filter_isComplete_resolved]
      rfl
    have queue : t.axles.queue = s.axles.queue.filter fun a => decide (a.ordinal ≤ kept) := by
      rw [eq]
      rfl
    refine ⟨?_, ?_, ?_, ?_, ?_, fun z => ?_, list, fun v mem => ?_, queue, ?_, ?_, ?_⟩
    · rw [eq]
      rfl
    · rw [eq]
      rfl
    · rw [eq]
      rfl
    · rw [eq]
      rfl
    · rw [eq]
      rfl
    · rw [eq]
      exact congrArg ZoneUnit.windows (windows z)
    · rw [list] at mem
      obtain ⟨y, kept, rfl⟩ := List.mem_map.1 mem
      exact ⟨(y.resolveAtEnding_isComplete _).trans (List.mem_filter.1 kept).2, (y.resolveAtEnding_keeps _).2.2⟩
    · rw [eq]
      rfl
    · rw [list, queue, eq]
      simp only [State.ended, filter_isComplete_resolved, List.length_map]
      rfl
    · rw [eq]
      rfl

end

section
/-! The effects of motion on the records, the Window Lists and the counters; standstills and unexpected passages (R53, R54, R56,
R97, R99). -/

namespace Sys2Proof.Machine

/-! ## Records changed in place -/

/-- A change of every record that keeps its ordinal is found under that ordinal. -/
theorem AxleTracker.find_of_map {x y : AxleTracker} {f : AxleRecord → AxleRecord} (queue : y.queue = x.queue.map f)
    (keeps : ∀ a, (f a).ordinal = a.ordinal) (j : Nat) : y.find j = (x.find j).map f := by
  unfold find
  rw [queue, List.find?_map]
  exact congrArg (Option.map f) (congrArg (List.find? · x.queue) (funext fun a => congrArg (· == j) (keeps a)))

/-! ## The estimates of a cancellation (R99) -/

theorem channelOf_inj {y z : Fin 4} {q r : Rail} (same : channelOf y q = channelOf z r) : y = z ∧ q = r := by
  rw [channelOf_eq_iff, channelZone_channelOf, channelRail_channelOf] at same
  exact same

/-- The estimates that a cancellation of every window hands on. -/
def State.cancelHands (s : State) : List Handed :=
  (List.finRange 4).flatMap fun z => s.zones[z].windows.flatMap (motionEstimates z)

theorem rejects_flatMap {α : Type} (l : List α) (f : α → List Handed) :
    rejects (l.flatMap f) = (l.map fun x => rejects (f x)).sum := by
  induction l with
  | nil => rfl
  | cons x l ih => rw [List.flatMap_cons, rejects_append, ih, List.map_cons, List.sum_cons]

theorem rejects_motionEstimates (z : Fin 4) (w : Window) :
    rejects (motionEstimates z w) = w.north.decided.isNone.toNat + w.south.decided.isNone.toNat := by
  rw [motionEstimates, rejects_append]
  cases w.north.decided.isNone <;> cases w.south.decided.isNone <;> rfl

/-- R97: each undecided rail cancelled is an occurrence of ZONE_REJECTS. -/
theorem rejects_cancelHands (s : State) : rejects s.cancelHands = s.undecidedRails := by
  unfold State.cancelHands State.undecidedRails
  rw [rejects_flatMap, List.flatMap_def, List.sum_flatten, List.map_map]
  simp only [rejects_flatMap, rejects_motionEstimates]
  rfl

theorem mem_motionEstimates (z : Fin 4) (w : Window) (h : Handed) :
    h ∈ motionEstimates z w ↔
      ∃ r : Rail, (w.rail r).decided = none ∧ h = bareEstimate w (channelOf z r) .motion := by
  have both (p : Rail → Prop) : (∃ r, p r) ↔ p .north ∨ p .south :=
    ⟨fun ⟨r, at_r⟩ => by cases r <;> simp [at_r], fun h => h.elim (⟨_, ·⟩) (⟨_, ·⟩)⟩
  rw [both, motionEstimates, List.mem_append]
  simp only [Window.rail]
  cases w.north.decided <;> cases w.south.decided <;> simp

theorem mem_cancelHands (s : State) (h : Handed) :
    h ∈ s.cancelHands ↔
      ∃ (z : Fin 4) (r : Rail), ∃ w ∈ s.zones[z].windows,
        (w.rail r).decided = none ∧ h = bareEstimate w (channelOf z r) .motion := by
  simp only [State.cancelHands, List.mem_flatMap, List.mem_finRange, true_and, mem_motionEstimates]
  constructor
  · rintro ⟨z, w, mem, r, undecided, eq⟩
    exact ⟨z, r, w, mem, undecided, eq⟩
  · rintro ⟨z, r, w, mem, undecided, eq⟩
    exact ⟨z, w, mem, r, undecided, eq⟩

/-- An estimate that says nothing but MOTION. -/
def Handed.IsMotion (h : Handed) : Prop :=
  h.condition = .motion ∧ h.mass = none ∧ h.belowZero = false ∧ h.aboveRange = false ∧ h.zeroSuspect = false

theorem cancelHands_isMotion (s : State) : ∀ h ∈ s.cancelHands, h.IsMotion := by
  intro h mem
  obtain ⟨z, r, w, -, -, rfl⟩ := (mem_cancelHands s h).1 mem
  exact ⟨rfl, rfl, rfl, rfl, rfl⟩

/-- MOTION estimates write no flag. -/
theorem AxleRecord.takeEstimate_motion {h : Handed} (motion : h.IsMotion) (n : Nat) (a : AxleRecord) :
    a.takeEstimate n h =
      if a.ordinal ≤ n ∧ h.generation = a.generation ∧ a.finalized = false ∧ a.estimates[h.channel] = none then
        { a with estimates := a.estimates.set h.channel (some { condition := .motion, mass := none }) }
      else a := by
  obtain ⟨condition, mass, below, above, zero⟩ := motion
  have none : a.flags ||| axleFlagIf false .underzero ||| axleFlagIf false .overrange ||| axleFlagIf false .zeroSuspect =
      a.flags := by simp [axleFlagIf]
  unfold takeEstimate
  rw [condition, mass, below, above, zero, none]

/-- What MOTION estimates make of a record, channel by channel (R76, R99). -/
theorem AxleRecord.takeEstimates_motion {hs : List Handed} (motion : ∀ h ∈ hs, h.IsMotion) (n : Nat) (a : AxleRecord) :
    (a.takeEstimates n hs).flags = a.flags ∧
      ∀ ch : Fin 8,
        (a.takeEstimates n hs).estimates[ch] =
          if a.ordinal ≤ n ∧ a.finalized = false ∧ a.estimates[ch] = none ∧
              ∃ h ∈ hs, h.ordinal = a.ordinal ∧ h.generation = a.generation ∧ h.channel = ch then
            some { condition := .motion, mass := none }
          else a.estimates[ch] := by
  induction hs generalizing a with
  | nil => simp
  | cons h hs ih =>
    obtain ⟨first, rest⟩ := List.forall_mem_cons.1 motion
    have step : a.takeEstimates n (h :: hs) =
        (if h.ordinal = a.ordinal then a.takeEstimate n h else a).takeEstimates n hs := rfl
    rw [step, takeEstimate_motion first]
    by_cases mine : h.ordinal = a.ordinal ∧ a.ordinal ≤ n ∧ h.generation = a.generation ∧ a.finalized = false ∧
        a.estimates[h.channel] = none
    · obtain ⟨ordinal, entered, generation, open', undecided⟩ := mine
      rw [if_pos ordinal, if_pos ⟨entered, generation, open', undecided⟩]
      obtain ⟨flags, estimates⟩ := ih rest { a with estimates := a.estimates.set h.channel (some ⟨.motion, none⟩) }
      refine ⟨flags, fun ch => ?_⟩
      rw [estimates ch]
      by_cases same : h.channel = ch
      · subst same
        simp [entered, open', undecided, ordinal, generation]
      · have apart : h.channel.val ≠ ch.val := fun e => same (Fin.ext e)
        simp [apart, same]
    · have stands : (if h.ordinal = a.ordinal then
          if a.ordinal ≤ n ∧ h.generation = a.generation ∧ a.finalized = false ∧ a.estimates[h.channel] = none then
            { a with estimates := a.estimates.set h.channel (some { condition := .motion, mass := none }) }
          else a else a) = a := by
        split
        next ordinal => exact if_neg fun c => mine ⟨ordinal, c⟩
        · rfl
      rw [stands]
      obtain ⟨flags, estimates⟩ := ih rest a
      refine ⟨flags, fun ch => ?_⟩
      rw [estimates ch]
      refine if_congr (and_congr_right fun entered => and_congr_right fun open' => and_congr_right fun undecided => ?_) rfl rfl
      rw [List.exists_mem_cons_iff, or_iff_right]
      rintro ⟨ordinal, generation, rfl⟩
      exact mine ⟨ordinal, entered, generation, open', undecided⟩

/-! ## Motion at a record (R54, R56) -/

/-- A record after motion: the estimates of the cancellation, DISTURBED on the section. -/
def AxleRecord.moved (s : State) (a : AxleRecord) : AxleRecord :=
  if s.axles.firstOn ≤ a.ordinal ∧ a.ordinal ≤ s.axles.lastOn then
    { a.takeEstimates s.axles.lastOn s.cancelHands with
      flags := (a.takeEstimates s.axles.lastOn s.cancelHands).flags ||| AxleFlag.disturbed.mask }
  else a.takeEstimates s.axles.lastOn s.cancelHands

section
variable (s : State) (a : AxleRecord)

theorem AxleRecord.moved_eq : a.moved s = { a with estimates := (a.moved s).estimates, flags := (a.moved s).flags } := by
  unfold moved
  split <;> rw [takeEstimates_eq]

theorem AxleRecord.moved_ordinal : (a.moved s).ordinal = a.ordinal := by rw [moved_eq]

theorem AxleRecord.moved_flags :
    (a.moved s).flags =
      if s.axles.firstOn ≤ a.ordinal ∧ a.ordinal ≤ s.axles.lastOn then a.flags ||| AxleFlag.disturbed.mask else a.flags := by
  have flags := (a.takeEstimates_motion (cancelHands_isMotion s) s.axles.lastOn).1
  unfold moved
  split
  · rw [flags]
  · exact flags

/-- R99: the estimates after a cancellation. -/
theorem AxleRecord.moved_cancelled : s.CancelledEstimates a (a.moved s) := by
  intro z r
  have estimates := (a.takeEstimates_motion (cancelHands_isMotion s) s.axles.lastOn).2 (channelOf z r)
  have same : (a.moved s).estimates = (a.takeEstimates s.axles.lastOn s.cancelHands).estimates := by
    unfold moved
    split <;> rfl
  rw [same, estimates]
  refine if_congr (and_congr_right fun _ => and_congr_right fun _ => and_congr_right fun _ => ?_) rfl rfl
  constructor
  · rintro ⟨h, mem, ordinal, generation, channel⟩
    obtain ⟨y, q, w, held, undecided, rfl⟩ := (mem_cancelHands s h).1 mem
    obtain ⟨rfl, rfl⟩ := channelOf_inj channel
    exact ⟨w, held, ordinal, generation, undecided⟩
  · rintro ⟨w, held, ordinal, generation, undecided⟩
    exact ⟨_, (mem_cancelHands s _).2 ⟨z, r, w, held, undecided, rfl⟩, ordinal, generation, rfl⟩

end

theorem cancelWindows_queue (s : State) :
    (cancelWindows s).axles = { s.axles with queue := s.axles.queue.map (AxleRecord.takeEstimates s.axles.lastOn s.cancelHands) } := by
  rw [(cancelWindows_passed s).frame]
  rfl

/-- The records after motion. -/
theorem motion_queue (s : State) : (motion s).axles.queue = s.axles.queue.map (AxleRecord.moved s) := by
  have axles := cancelWindows_queue (beforeCancel s)
  rw [motion_def]
  unfold disturbSection
  rw [axles]
  show List.map _ (List.map _ s.axles.queue) = _
  rw [List.map_map]
  refine List.map_congr_left fun a _ => ?_
  unfold AxleRecord.moved
  simp only [Function.comp_apply, AxleRecord.takeEstimates_ordinal]
  rfl

theorem motion_find (s : State) (j : Nat) : (motion s).axles.find j = (s.axles.find j).map (AxleRecord.moved s) :=
  AxleTracker.find_of_map (motion_queue s) (AxleRecord.moved_ordinal s) j

theorem motion_counts (s : State) : s.Counts (motion s) (Counter.ofEvent .zoneRejects s.undecidedRails) [] := by
  have counts := (cancelWindows_passed (beforeCancel s)).counts
  have hands : rejects (([0, 1, 2, 3] : List (Fin 4)).flatMap fun z => ((beforeCancel s).zones[z].cancel z).2) =
      s.undecidedRails := rejects_cancelHands s
  rw [hands] at counts
  rw [motion_def]
  generalize cancelWindows (beforeCancel s) = m at counts
  exact counts.congr rfl rfl rfl rfl

theorem hasAxleFlag_disturbed (f : AxleFlags) : hasAxleFlag (f ||| AxleFlag.disturbed.mask) .disturbed = true := by
  rw [hasAxleFlag_or]
  simp [hasAxleFlag, AxleFlag.getLsbD_mask]

/-! ## A passage in a train (R52, R55) -/

/-- A RUNNING or STANDING train at a passage: RUNNING, the quiet timer restarted (R52, R55). -/
def State.resumed (s : State) : State := startQuiet { s with train := { s.train with state := .running } }

theorem takePassage_of_train {s : State} (train : s.train.state = .running ∨ s.train.state = .standing) (p : Passage) :
    takePassage p s = classify p s.resumed := by
  unfold takePassage
  rcases train with state | state <;> rw [state] <;> rfl

theorem resumed_direction {s : State} {c : TrainContext} (context : s.train.ctx = some c) :
    s.resumed.direction = c.direction := by
  show (s.train.ctx.map TrainContext.direction).getD .eastbound = _
  rw [context]
  rfl

section
variable {s : State} {c : TrainContext} {p : Passage} (context : s.train.ctx = some c)
include context

section
variable (forward : p.sense = c.direction.forward)
include forward

theorem classify_entry (entry : p.pair = c.direction.entryPair) : classify p s.resumed = carryEntry p s.resumed := by
  unfold classify
  rw [resumed_direction context]
  exact (if_pos forward).trans (if_pos entry)

variable (exit : p.pair ≠ c.direction.entryPair)
include exit

theorem classify_exit (on : s.axles.firstOn ≤ s.axles.lastOn) : classify p s.resumed = exitAxle p s.resumed := by
  unfold classify
  rw [resumed_direction context]
  exact (if_pos forward).trans ((if_neg exit).trans (if_pos (decide_eq_true on)))

theorem classify_exit_empty (empty : s.axles.lastOn < s.axles.firstOn) : classify p s.resumed = unexpected p s.resumed := by
  unfold classify
  rw [resumed_direction context]
  exact (if_pos forward).trans ((if_neg exit).trans (if_neg fun on => absurd (of_decide_eq_true on) (Nat.not_le.2 empty)))

end

section
variable (reverse : p.sense ≠ c.direction.forward)
include reverse

theorem classify_backout (entry : p.pair = c.direction.entryPair) (on : s.axles.firstOn ≤ s.axles.lastOn) :
    classify p s.resumed = backOut (reverseMotion s.resumed) := by
  unfold classify
  rw [resumed_direction context]
  exact (if_neg reverse).trans ((if_pos entry).trans (if_pos (decide_eq_true on)))

theorem classify_return (exit : p.pair ≠ c.direction.entryPair) (cleared : 1 < s.axles.firstOn) :
    classify p s.resumed = returnAxle (reverseMotion s.resumed) := by
  unfold classify
  rw [resumed_direction context]
  exact (if_neg reverse).trans ((if_neg exit).trans (if_pos cleared))

theorem classify_reverse_unexpected
    (nothing :
      (p.pair = c.direction.entryPair ∧ s.axles.lastOn < s.axles.firstOn) ∨
        (p.pair ≠ c.direction.entryPair ∧ s.axles.firstOn ≤ 1)) :
    classify p s.resumed = unexpected p (reverseMotion s.resumed) := by
  unfold classify
  rw [resumed_direction context]
  refine (if_neg reverse).trans ?_
  rcases nothing with ⟨entry, empty⟩ | ⟨exit, first⟩
  · exact (if_pos entry).trans (if_neg fun on => absurd (of_decide_eq_true on) (Nat.not_le.2 empty))
  · exact (if_neg exit).trans (if_neg (Nat.not_lt.2 first))

end

/-- The motion effects of a reverse passage (R54). -/
theorem reversed_eq :
    reverseMotion s.resumed =
      { s with
        pace := PaceTracker.reset
        train :=
          { s.train with
            state := .running
            ctx := some { c with disturbed := true, epoch := c.epoch + 1 }
            quiet := some (s.rx.time + BitVec.ofNat 32 s.settings.quietTime) }
        zones := (reverseMotion s.resumed).zones
        axles := { s.axles with queue := (reverseMotion s.resumed).axles.queue }
        counters := (reverseMotion s.resumed).counters, notices := (reverseMotion s.resumed).notices } := by
  have train : (modifyCtx (fun c => { c with disturbed := true, epoch := c.epoch + 1 }) s.resumed).train =
      { s.train with
        state := .running
        ctx := some { c with disturbed := true, epoch := c.epoch + 1 }
        quiet := some (s.rx.time + BitVec.ofNat 32 s.settings.quietTime) } := by
    simp only [modifyCtx, State.resumed, startQuiet, context, Option.map_some]
  rw [← train]
  exact reverseMotion_eq s.resumed

end

section
variable (s : State)

theorem reversed_find (j : Nat) : (reverseMotion s.resumed).axles.find j = (s.axles.find j).map (AxleRecord.moved s) :=
  motion_find (modifyCtx (fun c => { c with disturbed := true }) s.resumed) j

theorem reversed_get (z : Fin 4) : (reverseMotion s.resumed).zones[z] = { s.zones[z] with windows := [] } :=
  motion_get (modifyCtx (fun c => { c with disturbed := true }) s.resumed) z

theorem reversed_counts : s.Counts (reverseMotion s.resumed) (Counter.ofEvent .zoneRejects s.undecidedRails) [] :=
  (motion_counts (modifyCtx (fun c => { c with disturbed := true }) s.resumed)).congr rfl rfl rfl rfl

end

/-- A record found after motion. -/
theorem moved_spec (s : State) {j : Nat} {a : AxleRecord} (held : s.axles.find j = some a) :
    a.moved s = { a with flags := (a.moved s).flags, estimates := (a.moved s).estimates } ∧
      s.CancelledEstimates a (a.moved s) ∧
        (a.moved s).flags =
          if s.axles.firstOn ≤ j ∧ j ≤ s.axles.lastOn then a.flags ||| AxleFlag.disturbed.mask else a.flags := by
  refine ⟨a.moved_eq s, a.moved_cancelled s, ?_⟩
  rw [a.moved_flags, AxleTracker.ordinal_of_find held]

end Sys2Proof.Machine

open Sys2Proof Sys2Proof.Machine

/-- Settles O22: the passage is counted, behind the motion effects where it is a reverse one. -/
theorem unexpectedPassagesAreCounted : Obligations.UnexpectedPassagesAreCounted := by
  unfold Obligations.UnexpectedPassagesAreCounted
  intro s t p c train context taken
  rw [takePassage_of_train train] at taken
  refine ⟨fun forward exit empty => ?_, fun reverse nothing => ?_⟩
  · rw [taken, classify_exit_empty context forward exit empty]
    simp only [unexpected, modifyCtx, State.resumed, startQuiet, context, Option.map_some]
    rfl
  · rw [classify_reverse_unexpected context reverse nothing] at taken
    have eq := reversed_eq context
    have find := reversed_find s
    have get := reversed_get s
    have counts := reversed_counts s
    generalize reverseMotion s.resumed = m at taken eq find get counts
    have notices : t.notices = m.notices.raise .countMismatch p.pair.code := by rw [taken]; rfl
    have zones : t.zones = m.zones := by rw [taken]; rfl
    have axles : t.axles = m.axles := by rw [taken]; rfl
    refine ⟨?_, ?_, ?_, fun z => ?_, ?_, fun j a held => ?_, ?_⟩
    · rw [taken]
      show m.train.ctx.map _ = _
      rw [eq]
      rfl
    · rw [notices, NoticeUnit.entry_raise, counts.2.2 _ (by decide) (by simp), counts.level]
      rfl
    · refine (counts.trans (raiseCause_counts .countMismatch p.pair.code m) fun _ _ => rfl).congr rfl rfl ?_ notices
      rw [taken]
      rfl
    · rw [zones]
      exact get z
    · rw [axles, eq]
    · obtain ⟨moved, cancelled, flags⟩ := moved_spec s held
      refine ⟨a.moved s, ?_, moved, cancelled, flags⟩
      rw [axles, find, held]
      rfl
    · rw [taken, eq]
      rfl

/-- Settles O23: each train state's expiry, a standstill being motion and the state STANDING. -/
theorem quietTimerExpiries : Obligations.QuietTimerExpiries := by
  unfold Obligations.QuietTimerExpiries
  intro s
  have stops {due : Bool} (eq : s.quietDue = due) :
      exec .quietTimerExpiry s = .next (if due then boundary (quietExpiry s) else s) := by
    rw [← eq]
    rfl
  refine ⟨fun stopped => stops (due := false) ?_, fun x runs => ⟨fun ahead => stops (due := false) ?_, fun due => ?_⟩⟩
  · unfold State.quietDue
    rw [stopped]
    rfl
  · unfold State.quietDue
    rw [runs]
    exact Bool.eq_false_iff.2 fun due => absurd ((atOrBefore_iff _ _).1 due) (not_le.2 ahead)
  have come : s.quietDue = true := by
    unfold State.quietDue
    rw [runs]
    exact (atOrBefore_iff _ _).2 due
  have expires {t : State} (eq : quietExpiry s = t) : exec .quietTimerExpiry s = .next (boundary t) := by
    rw [stops come, ← eq]
    rfl
  refine ⟨fun c running context on => ?_, fun standing _ => expires ?_, fun ignoring => expires ?_⟩
  · have standing : quietExpiry s = standstill s := by
      unfold quietExpiry
      rw [running]
      exact if_pos (decide_eq_true on)
    have eq := motion_eq (modifyCtx (fun c => { c with stood := true }) s)
    have find := motion_find (modifyCtx (fun c => { c with stood := true }) s)
    have queue := motion_queue (modifyCtx (fun c => { c with stood := true }) s)
    have get := motion_get (modifyCtx (fun c => { c with stood := true }) s)
    have counts := motion_counts (modifyCtx (fun c => { c with stood := true }) s)
    unfold standstill at standing
    generalize motion (modifyCtx (fun c => { c with stood := true }) s) = m at standing eq find queue get counts
    generalize target : startQuiet { m with train := { m.train with state := .standing } } = t at standing
    refine ⟨t, expires standing, ?_, ?_, ?_, ?_, fun z => ?_, ?_, fun j a held => ?_, ?_, ?_, ?_⟩
    · rw [← target]
      rfl
    · rw [← target, eq]
      simp only [startQuiet, modifyCtx, context, Option.map_some]
    · rw [← target, eq]
      rfl
    · rw [← target, eq]
      rfl
    · rw [← target]
      exact get z
    · rw [← target, eq]
      rfl
    · obtain ⟨moved, cancelled, flags⟩ := moved_spec s held
      refine ⟨a.moved s, ?_, moved, cancelled, flags⟩
      rw [← target]
      exact (find j).trans (by rw [show (modifyCtx _ s).axles.find j = some a from held]; rfl)
    · rw [← target]
      exact counts.congr rfl rfl rfl rfl
    · rw [← target, eq]
      rfl
    · have moved : t.axles.queue = s.axles.queue.map (AxleRecord.moved s) := by
        rw [← target]
        exact queue
      rw [moved]
      intro b mem low high
      obtain ⟨a, held, rfl⟩ := List.mem_map.1 mem
      rw [a.moved_ordinal] at low high
      rw [a.moved_flags, if_pos ⟨low, high⟩]
      exact hasAxleFlag_disturbed _
  · unfold quietExpiry
    rw [standing]
    rfl
  · unfold quietExpiry
    rw [ignoring]
    rfl

end

section
/-! An exit: the record finalized, what is counted and queued of it, and the vehicle it completes (R73, R74, R80, R100, R136,
R156, R175). -/

namespace Sys2Proof.Machine

/-! ## A record put in place -/

/-- A record put in place of the one of its ordinal. -/
theorem AxleTracker.find_put (x : AxleTracker) {j : Nat} {b : AxleRecord} (same : b.ordinal = j) (i : Nat) :
    (x.modify j fun _ => b).find i = if i = j then (x.find j).map fun _ => b else x.find i := by
  have put : (x.modify j fun _ => b) = x.modify j fun a => { b with ordinal := a.ordinal } := by
    unfold modify
    refine congrArg (fun q => { x with queue := q }) (List.map_congr_left fun a _ => ?_)
    split
    next here =>
      show b = { b with ordinal := a.ordinal }
      rw [here, ← same]
    · rfl
  rw [put, find_modify x j i (fun a => { b with ordinal := a.ordinal }) fun _ => rfl]
  split
  next here =>
    rw [here]
    cases held : x.find j with
    | none => rfl
    | some a => rw [Option.map_some, Option.map_some, ordinal_of_find held, ← same]
  · rfl

/-! ## The finalized record (R74) -/

/-- An undecided estimate in use becomes TIMING. -/
theorem AxleRecord.settleTiming_get (channels : List (Fin 8)) (a : AxleRecord) (ch : Fin 8) :
    (a.settleTiming channels).estimates[ch] =
      if ch ∈ channels ∧ a.estimates[ch] = none then some { condition := .timing, mass := none } else a.estimates[ch] := by
  have fold (es : Vector (Option Estimate) 8) :
      (channels.foldl (fun (es : Vector (Option Estimate) 8) (ch : Fin 8) =>
          if es[ch] = none then es.set ch (some { condition := .timing, mass := none }) else es) es)[ch] =
        if ch ∈ channels ∧ es[ch] = none then some { condition := .timing, mass := none } else es[ch] := by
    induction channels generalizing es with
    | nil => simp
    | cons k channels ih =>
      rw [List.foldl_cons, ih]
      by_cases same : ch = k
      · subst same
        by_cases undecided : es[ch.val] = none <;> simp [undecided]
      · have apart : k.val ≠ ch.val := fun e => same (Fin.ext e.symm)
        by_cases undecided : es[k.val] = none <;> simp [undecided, same, apart]
  exact fold a.estimates

/-- The record combined with its exit, TIMING where it was undecided (R74). -/
def AxleRecord.exited (cal : Calibration) (p : Passage) (a : AxleRecord) : AxleRecord :=
  AxleRecord.combine cal.limits cal.curve cal.zonesInUse p.ownPace
    { a with
      exitTime := some p.secondTime, exitPace := some p.ownPace
      estimates := (a.settleTiming cal.channelsInUse).estimates }

theorem AxleRecord.finalize_eq (cal : Calibration) (p : Passage) (a : AxleRecord) :
    a.finalize cal p =
      { a.exited cal p with
        finalized := true
        flags := if cal.calPending then (a.exited cal p).flags ||| AxleFlag.calPending.mask else (a.exited cal p).flags } := by
  have flags : (a.exited cal p).flags ||| axleFlagIf cal.calPending .calPending =
      if cal.calPending then (a.exited cal p).flags ||| AxleFlag.calPending.mask else (a.exited cal p).flags := by
    cases cal.calPending
    · exact BitVec.or_zero
    · rfl
  rw [← flags]
  rfl

/-- Every estimate in use of a finalized record is decided. -/
theorem AxleRecord.finalize_decided (cal : Calibration) (p : Passage) (a : AxleRecord) {ch : Fin 8}
    (used : ch ∈ cal.channelsInUse) : (a.finalize cal p).estimates[ch] ≠ none := by
  rw [finalize_eq]
  show (a.settleTiming cal.channelsInUse).estimates[ch] ≠ none
  rw [settleTiming_get]
  split
  · simp
  next decided => exact fun undecided => decided ⟨used, undecided⟩

/-- The detail of a finalized record (R80). -/
theorem axleDetailOf_finalize (train : Word16) (cal : Calibration) (p : Passage) (a : AxleRecord) {d : AxleRecord}
    (final : d = a.finalize cal p) :
    axleDetailOf train cal.channelsInUse d =
      { train, ordinal := a.ordinal, exitTime := p.secondTime, entryPace := d.entryPace, exitPace := p.ownPace
        paceSource := d.paceSource, spacing := d.spacing
        estimates := cal.channelsInUse.filterMap fun ch => d.estimates[ch]
        north := d.north, south := d.south, axleLoad := d.axleLoad, flags := d.flags } := by
  have estimates : (cal.channelsInUse.map fun ch => (d.estimates[ch]).getD { condition := .timing, mass := none }) =
      cal.channelsInUse.filterMap fun ch => d.estimates[ch] := by
    rw [← List.filterMap_eq_map]
    refine List.filterMap_congr fun ch used => ?_
    obtain ⟨e, held⟩ := Option.ne_none_iff_exists'.1 (final ▸ a.finalize_decided cal p used)
    rw [Function.comp_apply, held]
    rfl
  unfold axleDetailOf
  rw [estimates, final]
  rfl

/-! ## What a finalization counts (R100, R175) -/

theorem Counter.inBand_eq (v : Nat) {c : Counter} (fits : c.value ≤ 4294967295) :
    (c.inBand v).1 =
      c.counted (c.ofEvent .axlesInBand (if c.selection.low ≤ v ∧ v ≤ c.selection.high then 1 else 0)) := by
  have one := c.occur_eq_counted .axlesInBand 1 fits
  unfold inBand
  unfold occur ofEvent at one
  unfold ofEvent
  by_cases event : c.selection.event = .axlesInBand
  · by_cases band : c.selection.low ≤ v ∧ v ≤ c.selection.high
    · rw [if_pos event, if_pos event] at one
      rw [if_pos ⟨event, band⟩, if_pos event, if_pos band]
      exact one
    · rw [if_neg fun h => band h.2, if_pos event, if_neg band]
      exact (c.counted_zero fits).symm
  · rw [if_neg fun h => event h.1, if_neg event]
    exact (c.counted_zero fits).symm

theorem countInBand_counts (v : Nat) (s : State) :
    s.Counts (countInBand v s)
      (fun k => k.ofEvent .axlesInBand (if k.selection.low ≤ v ∧ v ≤ k.selection.high then 1 else 0)) [] :=
  updateCounters_counts (fun _ => Counter.inBand_eq v) s

section
variable (a : AxleRecord) (p : Passage) (s : State)

/-- The record in place, its windows gone, and all it counts (R74, R100, R175). -/
def State.finalized : State :=
  countInBand (a.finalize s.cal p).speed
    (if (a.finalize s.cal p).axleLoad.isSome then
      countEvent .axlesWeighed 1
        (modifyAxle a.ordinal (fun _ => a.finalize s.cal p)
          (countEvent .zoneRejects (a.undecided s.cal.channelsInUse) (withdrawWindows a.ordinal (some a.generation) s)))
    else
      modifyAxle a.ordinal (fun _ => a.finalize s.cal p)
        (countEvent .zoneRejects (a.undecided s.cal.channelsInUse) (withdrawWindows a.ordinal (some a.generation) s)))

theorem finalized_eq :
    s.finalized a p =
      { s with
        zones := (withdrawWindows a.ordinal (some a.generation) s).zones
        axles := s.axles.modify a.ordinal fun _ => a.finalize s.cal p
        counters := (s.finalized a p).counters, notices := (s.finalized a p).notices } := by
  unfold State.finalized
  split
  · rw [countInBand, countEvent, countEvent, updateCounters_eq, updateCounters_eq, modifyAxle, updateCounters_eq]
    rfl
  · rw [countInBand, countEvent, updateCounters_eq, modifyAxle, updateCounters_eq]
    rfl

/-- The occurrences of a finalization (R100, R175). -/
theorem finalized_counts :
    s.Counts (s.finalized a p)
      (fun k =>
        k.ofEvent .zoneRejects (s.cal.channelsInUse.filter fun ch => a.estimates[ch] = none).length +
          k.ofEvent .axlesWeighed (a.finalize s.cal p).axleLoad.isSome.toNat +
          k.ofEvent .axlesInBand
            (if k.selection.low ≤ (a.finalize s.cal p).speed ∧ (a.finalize s.cal p).speed ≤ k.selection.high then 1 else 0))
      [] := by
  have undecided : a.undecided s.cal.channelsInUse =
      (s.cal.channelsInUse.filter fun ch => a.estimates[ch] = none).length := by
    unfold AxleRecord.undecided
    refine congrArg List.length (List.filter_congr fun ch _ => ?_)
    rw [Bool.eq_iff_iff, beq_iff_eq, decide_eq_true_iff]
  have rejects : s.Counts
      (modifyAxle a.ordinal (fun _ => a.finalize s.cal p)
        (countEvent .zoneRejects (a.undecided s.cal.channelsInUse) (withdrawWindows a.ordinal (some a.generation) s)))
      (Counter.ofEvent .zoneRejects (s.cal.channelsInUse.filter fun ch => a.estimates[ch] = none).length) [] := by
    rw [undecided]
    exact (countEvent_counts .zoneRejects _ (withdrawWindows a.ordinal (some a.generation) s)).congr rfl rfl rfl rfl
  unfold State.finalized
  refine State.Counts.trans (e := []) (f := []) ?_ (countInBand_counts (a.finalize s.cal p).speed _) fun _ _ => rfl
  generalize modifyAxle a.ordinal _ _ = m at rejects ⊢
  split
  next weighed =>
    rw [weighed]
    exact rejects.trans (countEvent_counts .axlesWeighed 1 m) fun _ _ => rfl
  next light =>
    rw [Bool.eq_false_of_not_eq_true light]
    exact rejects.of_eq fun _ => by simp

theorem withdrawWindows_get (j g : Nat) (z : Fin 4) :
    (withdrawWindows j (some g) s).zones[z] =
      { s.zones[z] with windows := s.zones[z].windows.filter fun w => w.ordinal ≠ j ∨ w.generation ≠ g } := by
  unfold withdrawWindows
  rw [mapZones_get]
  unfold ZoneUnit.withdraw
  refine congrArg (fun l => { s.zones[z] with windows := l }) (List.filter_congr fun w _ => ?_)
  rw [Bool.eq_iff_iff, Bool.not_eq_true', Bool.and_eq_false_iff, decide_eq_true_iff]
  simp

/-- A finalization with its detail (R80, R156). -/
theorem finalizeAxle_eq :
    finalizeAxle a p s =
      if s.settings.axleDetail then
        offerDetail
          (axleDetailOf ((s.train.ctx.map TrainContext.number).getD 0) s.cal.channelsInUse (a.finalize s.cal p))
          (s.finalized a p)
      else s.finalized a p := by
  have eq := finalized_eq a p s
  have settings : (s.finalized a p).settings = s.settings := by rw [eq]
  have train : (s.finalized a p).train = s.train := by rw [eq]
  have cal : (s.finalized a p).cal = s.cal := by rw [eq]
  show (if (s.finalized a p).settings.axleDetail then
      offerDetail
        (axleDetailOf (((s.finalized a p).train.ctx.map TrainContext.number).getD 0) (s.finalized a p).cal.channelsInUse
          (a.finalize s.cal p))
        (s.finalized a p)
    else s.finalized a p) = _
  rw [settings, train, cal]

variable {a p s}

/-- A finalization in a train's context: the detail queued, or dropped and counted (R80, R156). -/
theorem finalizeAxle_spec {c : TrainContext} (context : s.train.ctx = some c) :
    finalizeAxle a p s =
      { s.finalized a p with
        link :=
          if s.settings.axleDetail = true ∧ s.link.details.length < 32 then
            { s.link with
              details := s.link.details ++ [axleDetailOf c.number s.cal.channelsInUse (a.finalize s.cal p)] }
          else s.link
        train :=
          { s.train with
            ctx :=
              some
                { c with
                  detailsDropped :=
                    c.detailsDropped +
                      if s.settings.axleDetail = true ∧ 32 ≤ s.link.details.length then 1 else 0 } } } := by
  have eq := finalized_eq a p s
  have stands : ({ s.train with ctx := some c } : TrainControl) = s.train := by rw [← context]
  rw [finalizeAxle_eq, context]
  generalize s.finalized a p = m at eq
  cases detail : s.settings.axleDetail with
  | false =>
    rw [eq]
    simp [stands]
  | true =>
    rw [if_pos rfl]
    unfold offerDetail modifyCtx
    rw [eq]
    by_cases room : s.link.details.length < 32
    · have full : ¬32 ≤ s.link.details.length := Nat.not_le.2 room
      simp [room, full, detailCapacity, stands]
    · have full : 32 ≤ s.link.details.length := Nat.not_lt.1 room
      simp [room, full, detailCapacity, context]

end

/-! ## The clearance reported (R136) -/

section
variable {s u : State} (q : Nat)

/-- A completion reads the list, the tables, the records, the train, the Consist List, the settings and T. -/
theorem completeVehicle_asm (asm : s.asm = u.asm) (cal : s.cal = u.cal) (axles : s.axles = u.axles) (train : s.train = u.train)
    (consist : s.consist = u.consist) (settings : s.settings = u.settings) (rx : s.rx = u.rx) :
    (completeVehicle q s).asm = (completeVehicle q u).asm := by
  have totals : (s.totalled q).asm = (u.totalled q).asm := by
    unfold State.totalled modifyVehicle State.completed
    rw [asm, cal, axles]
  have trains : (s.totalled q).train = (u.totalled q).train := train
  have consists : (s.totalled q).consist = (u.totalled q).consist := consist
  have waits : (s.totalled q).settings = (u.totalled q).settings := settings
  have times : (s.totalled q).rx = (u.totalled q).rx := rx
  rw [completeVehicle_eq, completeVehicle_eq]
  generalize s.totalled q = x at totals trains consists waits times
  generalize u.totalled q = y at totals trains consists waits times
  unfold resolveAtCompletion
  rw [totals, trains, consists, waits]
  have modified (f : Vehicle → Vehicle) : (modifyVehicle q f x).asm = (modifyVehicle q f y).asm := by
    unfold modifyVehicle
    rw [totals]
  split
  · exact totals
  split
  · split
    · exact modified _
    split
    · exact modified _
    split
    · exact modified _
    · unfold beginWait modifyVehicle
      rw [totals, times, waits]
  · exact totals

end

section
variable {s : State} {j : Nat}

theorem reportClearance_of_none (none : ∀ v ∈ s.asm.list, v.isComplete = true ∨ v.first + v.count - 1 ≠ j) :
    reportClearance j s = s := by
  unfold reportClearance
  rw [List.find?_eq_none.2]
  intro v mem
  rcases none v mem with complete | elsewhere
  · simp [complete]
  · simp [Vehicle.last, elsewhere]

theorem reportClearance_of_formed {front back : List Vehicle} {v : Vehicle} (split : s.asm.list = front ++ v :: back)
    (before : ∀ y ∈ front, y.isComplete = true ∨ y.first + y.count - 1 ≠ j) (formed : v.isComplete = false)
    (last : v.first + v.count - 1 = j) : reportClearance j s = completeVehicle v.sequence s := by
  have none : front.find? (fun v => v.last == j && !v.isComplete) = none := by
    refine List.find?_eq_none.2 fun y mem => ?_
    rcases before y mem with complete | elsewhere
    · simp [complete]
    · simp [Vehicle.last, elsewhere]
  have here : (v.last == j && !v.isComplete) = true := by simp [Vehicle.last, last, formed]
  unfold reportClearance
  rw [split, List.find?_append, none, Option.none_or, List.find?_cons, here]

end

/-! ## An exit (R73) -/

section
variable (s : State) (c : TrainContext) (p : Passage)

/-- The first axle cleared: first_on and the exits count advance (R73). -/
def State.cleared : State :=
  { s with
    train :=
      { s.train with
        state := .running, ctx := some { c with exits := c.exits + 1 }
        quiet := some (s.rx.time + BitVec.ofNat 32 s.settings.quietTime) }
    axles := { s.axles with firstOn := s.axles.firstOn + 1 } }

/-- The first axle cleared and its record, where one is held that is not finalized, finalized (R73, R74). -/
def State.left : State :=
  match s.axles.find s.axles.firstOn with
  | some a => if a.finalized then s.cleared c else finalizeAxle a p (s.cleared c)
  | none => s.cleared c

theorem left_of_finalized {a : AxleRecord} (held : s.axles.find s.axles.firstOn = some a) (finalized : a.finalized = true) :
    s.left c p = s.cleared c := by
  unfold State.left
  simp only [held, finalized, if_true]

theorem left_of_none (none : s.axles.find s.axles.firstOn = none) : s.left c p = s.cleared c := by
  unfold State.left
  simp only [none]

theorem left_of_open {a : AxleRecord} (held : s.axles.find s.axles.firstOn = some a) (open' : a.finalized = false) :
    s.left c p = finalizeAxle a p (s.cleared c) := by
  unfold State.left
  simp only [held, open', Bool.false_eq_true, if_false]

variable {s c}

/-- An exit reports the clearance of an axle whose record is held. -/
theorem exitAxle_eq (context : s.train.ctx = some c) :
    exitAxle p s.resumed =
      if s.axles.find s.axles.firstOn = none then s.left c p else reportClearance s.axles.firstOn (s.left c p) := by
  have cleared : ({ modifyCtx (fun c => { c with exits := c.exits + 1 }) s.resumed with
      axles := { s.axles with firstOn := s.axles.firstOn + 1 } } : State) = s.cleared c := by
    simp only [modifyCtx, State.resumed, startQuiet, context, Option.map_some]
    rfl
  have taken : exitAxle p s.resumed =
      match s.axles.find s.axles.firstOn with
      | some a => reportClearance s.axles.firstOn (if a.finalized then s.cleared c else finalizeAxle a p (s.cleared c))
      | none => s.cleared c := by
    rw [← cleared]
    rfl
  rw [taken]
  unfold State.left
  cases s.axles.find s.axles.firstOn with
  | none => rfl
  | some a => rfl

variable (s c)

/-- What an exit leaves alone before the clearance is reported. -/
structure Leaving (m : State) : Prop where
  frame :
    m = { s with
          train := m.train, axles := m.axles, zones := m.zones, counters := m.counters, notices := m.notices
          link := m.link }
  train :
    ∃ dropped,
      m.train =
        { s.train with
          state := .running, ctx := some { c with exits := c.exits + 1, detailsDropped := dropped }
          quiet := some (s.rx.time + BitVec.ofNat 32 s.settings.quietTime) }
  axles : m.axles = { s.axles with firstOn := s.axles.firstOn + 1, queue := m.axles.queue }
  others : ∀ j, j ≠ s.axles.firstOn → m.axles.find j = s.axles.find j
  zones : ∀ z : Fin 4, m.zones[z] = { s.zones[z] with windows := m.zones[z].windows }

theorem cleared_leaving : Leaving s c (s.cleared c) :=
  ⟨rfl, ⟨c.detailsDropped, rfl⟩, rfl, fun _ _ => rfl, fun _ => rfl⟩

theorem finalized_leaving {a : AxleRecord} (held : s.axles.find s.axles.firstOn = some a) :
    Leaving s c (finalizeAxle a p (s.cleared c)) := by
  have spec := finalizeAxle_spec (s := s.cleared c) (a := a) (p := p) (c := { c with exits := c.exits + 1 }) rfl
  have eq := finalized_eq a p (s.cleared c)
  have windows := withdrawWindows_get (s.cleared c) a.ordinal a.generation
  generalize (s.cleared c).finalized a p = m at spec eq
  have ordinal : a.ordinal = s.axles.firstOn := AxleTracker.ordinal_of_find held
  rw [spec]
  refine ⟨?_, ⟨_, rfl⟩, ?_, fun j other => ?_, fun z => ?_⟩
  · rw [eq]
    rfl
  · rw [eq]
    rfl
  · rw [eq]
    refine ((s.cleared c).axles.find_put (a.finalize_ordinal _ p) j).trans (if_neg ?_)
    rwa [ordinal]
  · rw [eq]
    refine (windows z).trans ?_
    exact congrArg (fun l => { s.zones[z] with windows := l }) (congrArg ZoneUnit.windows (windows z)).symm

theorem left_leaving : Leaving s c (s.left c p) := by
  cases held : s.axles.find s.axles.firstOn with
  | none =>
    rw [left_of_none s c p held]
    exact cleared_leaving s c
  | some a =>
    cases state : a.finalized with
    | true =>
      rw [left_of_finalized s c p held state]
      exact cleared_leaving s c
    | false =>
      rw [left_of_open s c p held state]
      exact finalized_leaving s c p held

end

end Sys2Proof.Machine

open Sys2Proof Sys2Proof.Machine

/-- Settles O21: the axle cleared and its record finalized, then the clearance reported, which writes the Assembly List
alone. -/
theorem exitsFinalizeTheFirstAxle : Obligations.ExitsFinalizeTheFirstAxle := by
  unfold Obligations.ExitsFinalizeTheFirstAxle
  intro s t p c train context forward exit on taken
  rw [takePassage_of_train train, classify_exit context forward exit on, exitAxle_eq p context] at taken
  have leaving := left_leaving s c p
  have whole (finished : s.axles.find s.axles.firstOn = none ∨
      ∃ a, s.axles.find s.axles.firstOn = some a ∧ a.finalized = true) : s.left c p = s.cleared c := by
    rcases finished with none | ⟨a, held, finalized⟩
    · exact left_of_none s c p none
    · exact left_of_finalized s c p held finalized
  have open' {a : AxleRecord} := left_of_open s c p (a := a)
  generalize s.left c p = m at taken leaving whole open'
  have list : ListOnly m t := by
    rw [taken]
    split
    · exact .refl m
    · exact reportClearance_listOnly _ m
  obtain ⟨frame, ⟨dropped, context'⟩, axles, others, zones⟩ := leaving
  have asm : m.asm = s.asm := by rw [frame]
  have frame' : t = { m with asm := { m.asm with list := t.asm.list } } := list.frame
  have trainEq : t.train = m.train := by rw [frame']
  have axlesEq : t.axles = m.axles := by rw [frame']
  have zonesEq : t.zones = m.zones := by rw [frame']
  have linkEq : t.link = m.link := by rw [frame']
  have countersEq : t.counters = m.counters := by rw [frame']
  have noticesEq : t.notices = m.notices := by rw [frame']
  refine ⟨?_, ?_, ?_, ?_, ?_, ?_, ?_, fun finished => ?_, fun quiet => ?_, fun front v back held split before formed last => ?_,
    fun j other => ?_, fun z => ?_, ?_, fun a held => ⟨fun finalized => ?_, fun opened => ?_⟩⟩
  · rw [trainEq, context']
  · rw [axlesEq, axles]
  · rw [axlesEq, axles]
  · rw [axlesEq, axles]
  · rw [axlesEq, axles]
  · rw [frame', frame]
  · exact ⟨dropped, by rw [trainEq, context']⟩
  · rw [trainEq, zonesEq, linkEq, countersEq, noticesEq, whole finished]
    exact ⟨rfl, rfl, rfl, rfl, rfl⟩
  · rw [taken, ← asm]
    rcases quiet with none | all
    · rw [if_pos none]
    · split
      · rfl
      · rw [reportClearance_of_none (by rw [asm]; exact all)]
  · rw [trainEq, axlesEq, taken, if_neg held,
      reportClearance_of_formed (by rw [asm]; exact split) before formed last]
    refine completeVehicle_asm _ asm ?_ rfl rfl ?_ ?_ ?_ <;> rw [frame]
  · rw [axlesEq, others j other]
  · rw [zonesEq]
    exact zones z
  · rw [frame', frame]
  · rw [axlesEq, whole (.inr ⟨a, held, finalized⟩)]
    exact held
  · have ordinal : a.ordinal = s.axles.firstOn := AxleTracker.ordinal_of_find held
    have spec := finalizeAxle_spec (s := s.cleared c) (a := a) (p := p) (c := { c with exits := c.exits + 1 }) rfl
    have eq := finalized_eq a p (s.cleared c)
    have windows := withdrawWindows_get (s.cleared c) a.ordinal a.generation
    have counts := finalized_counts a p (s.cleared c)
    rw [← open' held opened] at spec
    generalize (s.cleared c).finalized a p = f at spec eq counts
    have detail := axleDetailOf_finalize c.number s.cal p a rfl
    refine ⟨(a.settleTiming s.cal.channelsInUse).estimates, a.exited s.cal p, a.finalize s.cal p,
      a.settleTiming_get s.cal.channelsInUse, rfl, a.finalize_eq s.cal p, ?_, fun z => ?_, ?_, fun off => ?_,
      fun detailed room => ?_, ?_⟩
    · rw [axlesEq, spec, eq, ← ordinal]
      refine ((s.cleared c).axles.find_put (a.finalize_ordinal _ p) _).trans ((if_pos rfl).trans ?_)
      rw [ordinal]
      exact congrArg (Option.map _) held
    · rw [zonesEq, spec, eq, ← ordinal]
      exact congrArg ZoneUnit.windows (windows z)
    · exact counts.congr rfl rfl (by rw [countersEq, spec]) (by rw [noticesEq, spec])
    · rw [linkEq, spec]
      refine if_neg ?_
      rintro ⟨on', room⟩
      rcases off with off | full
      · exact absurd (on'.symm.trans off) (by decide)
      · exact absurd room (Nat.not_lt.2 full)
    · rw [linkEq, spec, ← ordinal]
      refine (if_pos ⟨detailed, room⟩).trans ?_
      rw [← detail]
      rfl
    · rw [trainEq, spec]
      rfl

end

section
/-! Reverse passages: what a backout and a return make of the records, the vehicles and the counts, behind the motion effects
(R54, R71, R72, R75, R140, R141, R151). -/

namespace Sys2Proof.Machine

/-! ## What every reverse passage does -/

/-- From s to t a reverse passage was carried out: DISTURBED on the ordinals of `disturbs`, the estimates cancelled where
`keeps` says that they stand. -/
structure Reversed (s : State) (disturbs keeps : Nat → Prop) (t : State) : Prop where
  frame :
    t = { s with
          train := t.train, axles := t.axles, pace := PaceTracker.reset, zones := t.zones, asm := t.asm
          counters := t.counters, notices := t.notices }
  train :
    ∃ c', t.train =
      { s.train with
        state := .running, ctx := c', quiet := some (s.rx.time + BitVec.ofNat 32 s.settings.quietTime) }
  zones : ∀ z : Fin 4, t.zones[z] = { s.zones[z] with windows := [] }
  highest : t.axles.highest = s.axles.highest
  lowestHeld : t.axles.lowestHeld = s.axles.lowestHeld
  length : t.axles.queue.length = s.axles.queue.length
  records :
    ∀ j a, s.axles.find j = some a →
      ∃ b, t.axles.find j = some b ∧ b = { a with flags := b.flags, estimates := b.estimates, vehicle := b.vehicle } ∧
        (disturbs j → b.flags = a.flags ||| AxleFlag.disturbed.mask) ∧ (¬disturbs j → b.flags = a.flags) ∧
        (keeps j → s.CancelledEstimates a b)

/-- The ordinal is on the section. -/
def AxleTracker.On (x : AxleTracker) (j : Nat) : Prop := x.firstOn ≤ j ∧ j ≤ x.lastOn

/-- The motion effects alone (R54). -/
theorem reversed_motion {s : State} {c : TrainContext} (context : s.train.ctx = some c) :
    Reversed s s.axles.On (fun _ => True) (reverseMotion s.resumed) := by
  have eq := reversed_eq context
  have find := reversed_find s
  have get := reversed_get s
  have queue : (reverseMotion s.resumed).axles.queue = s.axles.queue.map (AxleRecord.moved s) :=
    motion_queue (modifyCtx (fun c => { c with disturbed := true }) s.resumed)
  generalize reverseMotion s.resumed = m at eq find get queue
  refine ⟨?_, ⟨_, by rw [eq]⟩, get, by rw [eq], by rw [eq], by rw [queue, List.length_map], fun j a held => ?_⟩
  · rw [eq]
  · obtain ⟨moved, cancelled, flags⟩ := moved_spec s held
    refine ⟨a.moved s, by rw [find, held]; rfl, ?_, fun on => flags.trans (if_pos on), fun off => flags.trans (if_neg off),
      fun _ => cancelled⟩
    rw [a.moved_eq s]

/-! ## The backout (R71, R72) -/

/-- The newest vehicle, if it is FORMED and ends at the ordinal (R72, R141). -/
def State.dissolvable (s : State) (ordinal : Nat) : Option Vehicle :=
  s.asm.list.getLast?.filter fun x => !x.isComplete && x.last == ordinal

theorem dissolvable_iff (s : State) (ordinal : Nat) (x : Vehicle) :
    s.dissolvable ordinal = some x ↔
      s.asm.list.getLast? = some x ∧ x.isComplete = false ∧ x.first + x.count - 1 = ordinal := by
  unfold State.dissolvable
  rw [Option.filter_eq_some_iff, Bool.and_eq_true, Bool.not_eq_true', beq_iff_eq]
  rfl

/-- R141: the dissolution of the newest vehicle. -/
theorem dissolveVehicle_of_some {s : State} {ordinal : Nat} {x : Vehicle} (some' : s.dissolvable ordinal = some x) :
    dissolveVehicle ordinal s =
      { s with
        asm := { s.asm with list := s.asm.list.dropLast, nextSeq := s.asm.nextSeq - 1, firstFree := x.first }
        axles := s.axles.assign x none } := by
  obtain ⟨last, formed, ends⟩ := (dissolvable_iff s ordinal x).1 some'
  unfold dissolveVehicle
  simp only [last]
  exact if_pos (by simp [formed, Vehicle.last, ends])

theorem dissolveVehicle_of_none {s : State} {ordinal : Nat} (none' : s.dissolvable ordinal = none) :
    dissolveVehicle ordinal s = s := by
  unfold dissolveVehicle
  split
  next x last =>
    refine if_neg fun dissolves => ?_
    rw [Bool.and_eq_true, Bool.not_eq_true', beq_iff_eq] at dissolves
    have := (dissolvable_iff s ordinal x).2 ⟨last, dissolves⟩
    rw [none'] at this
    cases this
  · rfl

theorem AxleTracker.find_assign (x : AxleTracker) (v : Vehicle) (q : Option Nat) (j : Nat) :
    (x.assign v q).find j =
      (x.find j).map fun a => if v.first ≤ a.ordinal ∧ a.ordinal ≤ v.last then { a with vehicle := q } else a := by
  refine find_of_map rfl (fun a => ?_) j
  split <;> rfl

/-- The last axle backed out, before a vehicle is dissolved (R71). -/
def State.backed (m : State) : State :=
  withdrawWindows m.axles.lastOn none
    (modifyAxle m.axles.lastOn (fun a => { a with estimates := noEstimates })
      { modifyCtx (fun c => { c with backouts := c.backouts + 1 }) m with
        axles := { m.axles with lastOn := m.axles.lastOn - 1 } })

theorem backOut_eq (m : State) :
    backOut m = considerFormation (dissolveVehicle (m.axles.lastOn - 1) m.backed) := rfl

theorem backed_find (m : State) (j : Nat) :
    m.backed.axles.find j =
      (m.axles.find j).map fun a => if j = m.axles.lastOn then { a with estimates := noEstimates } else a := by
  show (({ m.axles with lastOn := m.axles.lastOn - 1 } : AxleTracker).modify m.axles.lastOn _).find j = _
  rw [AxleTracker.find_modify _ _ _ (fun a => { a with estimates := noEstimates }) fun _ => rfl]
  split
  · rfl
  · exact (congrFun Option.map_id _).symm

theorem ZoneUnit.withdraw_of_empty {u : ZoneUnit} (empty : u.windows = []) (j : Nat) (g : Option Nat) :
    u.withdraw j g = u := by
  unfold withdraw
  rw [empty, List.filter_nil, ← empty]

/-- An empty Window List has nothing to withdraw. -/
theorem backed_get {m : State} {z : Fin 4} (empty : m.zones[z].windows = []) : m.backed.zones[z] = m.zones[z] := by
  exact (mapZones_get (fun _ u => u.withdraw m.axles.lastOn none) _ z).trans (ZoneUnit.withdraw_of_empty empty _ _)

/-! ## What is carried out behind the motion effects -/

/-- Operations behind a reverse passage that keep the records but for flags, estimates and vehicles. -/
theorem Reversed.step {s m t : State} {disturbs keeps : Nat → Prop} (h : Reversed s disturbs keeps m)
    (extra stands : Nat → Prop) (fresh : ∀ j, extra j → ¬disturbs j)
    (frame : t = { m with train := t.train, axles := t.axles, zones := t.zones, asm := t.asm, notices := t.notices })
    (train : ∃ c', t.train = { m.train with ctx := c' }) (zones : ∀ z : Fin 4, t.zones[z] = m.zones[z])
    (highest : t.axles.highest = m.axles.highest) (lowestHeld : t.axles.lowestHeld = m.axles.lowestHeld)
    (length : t.axles.queue.length = m.axles.queue.length)
    (records :
      ∀ j b, m.axles.find j = some b →
        ∃ d, t.axles.find j = some d ∧ d = { b with flags := d.flags, estimates := d.estimates, vehicle := d.vehicle } ∧
          (extra j → d.flags = b.flags ||| AxleFlag.disturbed.mask) ∧ (¬extra j → d.flags = b.flags) ∧
          (stands j → d.estimates = b.estimates)) :
    Reversed s (fun j => disturbs j ∨ extra j) (fun j => keeps j ∧ stands j) t := by
  obtain ⟨c', context⟩ := h.train
  obtain ⟨c'', context'⟩ := train
  refine ⟨?_, ⟨c'', by rw [context', context]⟩, fun z => (zones z).trans (h.zones z), highest.trans h.highest,
    lowestHeld.trans h.lowestHeld, length.trans h.length, fun j a held => ?_⟩
  · rw [frame, h.frame]
  · obtain ⟨b, found, same, disturbed, calm, cancelled⟩ := h.records j a held
    obtain ⟨d, found', same', disturbed', calm', standing⟩ := records j b found
    refine ⟨d, found', by rw [same', same], ?_, fun none => ?_, fun ⟨kept, stood⟩ => ?_⟩
    · rintro (before | new)
      · rw [calm' fun new => fresh j new before, disturbed before]
      · rw [disturbed' new, calm (fresh j new)]
    · rw [calm' fun new => none (.inr new), calm fun before => none (.inl before)]
    · have := cancelled kept
      unfold State.CancelledEstimates at this ⊢
      rw [standing stood]
      exact this

/-- A formation behind a reverse passage. -/
theorem Reversed.consider {s m : State} {disturbs keeps : Nat → Prop} (h : Reversed s disturbs keeps m) :
    Reversed s disturbs keeps (considerFormation m) := by
  have formed := considerFormation_formed m
  generalize considerFormation m = t at formed
  have frame := formed.frame
  have step := h.step (t := t) (fun _ => False) (fun _ => True) (fun _ none => none.elim) (by rw [frame]) ⟨m.train.ctx, by rw [frame]⟩
    (fun z => by rw [frame]) (by rw [frame]) (by rw [frame]) ?_ fun j b held => ?_
  · refine { step with records := fun j a held => ?_ }
    obtain ⟨b, found, same, disturbed, calm, cancelled⟩ := step.records j a held
    exact ⟨b, found, same, fun on => disturbed (.inl on), fun off => calm (by simpa using off), fun kept => cancelled ⟨kept, trivial⟩⟩
  · obtain ⟨f, queue⟩ := formed.queue
    rw [queue, List.length_map]
  · obtain ⟨f, find⟩ := formed.find j
    exact ⟨{ b with vehicle := f b }, by rw [find, held]; rfl, rfl, fun none => none.elim, fun _ => rfl, fun _ => rfl⟩

/-- The last axle backed out (R71). -/
theorem reversed_backed {s m : State} {keeps : Nat → Prop} (h : Reversed s s.axles.On keeps m) :
    Reversed s (fun j => s.axles.On j ∨ False) (fun j => keeps j ∧ j ≠ m.axles.lastOn) m.backed := by
  refine h.step (fun _ => False) (fun j => j ≠ m.axles.lastOn) (fun _ none => none.elim) rfl ⟨_, rfl⟩ (fun z => ?_) rfl rfl
    (List.length_map ..) fun j b held => ?_
  · exact backed_get (by rw [h.zones])
  · have found := backed_find m j
    rw [held, Option.map_some] at found
    refine ⟨_, found, ?_, fun none => none.elim, fun _ => ?_, fun other => ?_⟩
    · split <;> rfl
    · split <;> rfl
    · rw [if_neg other]

/-- The newest vehicle dissolved where it ends at the ordinal (R72, R141). -/
theorem reversed_dissolved {s m : State} {disturbs keeps : Nat → Prop} (h : Reversed s disturbs keeps m) (ordinal : Nat) :
    Reversed s (fun j => disturbs j ∨ False) (fun j => keeps j ∧ True) (dissolveVehicle ordinal m) := by
  cases dissolves : m.dissolvable ordinal with
  | none =>
    rw [dissolveVehicle_of_none dissolves]
    exact h.step (fun _ => False) (fun _ => True) (fun _ none => none.elim) rfl ⟨_, rfl⟩ (fun _ => rfl) rfl rfl rfl
      fun j b held => ⟨b, held, rfl, fun none => none.elim, fun _ => rfl, fun _ => rfl⟩
  | some x =>
    rw [dissolveVehicle_of_some dissolves]
    refine h.step (fun _ => False) (fun _ => True) (fun _ none => none.elim) rfl ⟨_, rfl⟩ (fun _ => rfl) rfl rfl
      (List.length_map ..) fun j b held => ?_
    have found := m.axles.find_assign x none j
    rw [held, Option.map_some] at found
    refine ⟨_, found, ?_, fun none => none.elim, fun _ => ?_, fun _ => ?_⟩
    all_goals split <;> rfl

/-- The passage counted as unexpected (R53). -/
theorem reversed_unexpected {s m : State} {disturbs keeps : Nat → Prop} (h : Reversed s disturbs keeps m) (p : Passage) :
    Reversed s (fun j => disturbs j ∨ False) (fun j => keeps j ∧ True) (unexpected p m) :=
  h.step (fun _ => False) (fun _ => True) (fun _ none => none.elim) rfl ⟨_, rfl⟩ (fun _ => rfl) rfl rfl rfl
    fun _ b held => ⟨b, held, rfl, fun none => none.elim, fun _ => rfl, fun _ => rfl⟩

/-! ## The return (R75, R140) -/

/-- The newest cleared axle back on the section, its record DISTURBED (R75). -/
def State.returned (m : State) : State :=
  modifyAxle (m.axles.firstOn - 1) (fun a => { a with flags := a.flags ||| AxleFlag.disturbed.mask })
    { modifyCtx (fun c => { c with returns := c.returns + 1 }) m with
      axles := { m.axles with firstOn := m.axles.firstOn - 1 } }

section
variable {m : State}

theorem returned_find (m : State) (j : Nat) :
    m.returned.axles.find j =
      (m.axles.find j).map fun a =>
        if j = m.axles.firstOn - 1 then { a with flags := a.flags ||| AxleFlag.disturbed.mask } else a := by
  show (({ m.axles with firstOn := m.axles.firstOn - 1 } : AxleTracker).modify (m.axles.firstOn - 1) _).find j = _
  rw [AxleTracker.find_modify _ _ _ (fun a => { a with flags := a.flags ||| AxleFlag.disturbed.mask }) fun _ => rfl]
  split
  · rfl
  · exact (congrFun Option.map_id _).symm

/-- A record that is not held has nothing to disturb. -/
theorem returnAxle_of_none (none : m.axles.find (m.axles.firstOn - 1) = none) :
    returnAxle m =
      modifyCtx (fun c => { c with returnedAfterRelease := c.returnedAfterRelease + 1 })
        { modifyCtx (fun c => { c with returns := c.returns + 1 }) m with
          axles := { m.axles with firstOn := m.axles.firstOn - 1 } } := by
  unfold AxleTracker.find at none
  unfold returnAxle AxleTracker.find
  simp only [modifyCtx, none]

variable {a : AxleRecord} (held : m.axles.find (m.axles.firstOn - 1) = some a)
include held

theorem returnAxle_of_free (free : a.vehicle = none) : returnAxle m = m.returned := by
  unfold AxleTracker.find at held
  unfold returnAxle AxleTracker.find
  simp only [modifyCtx, held, free]
  rfl

theorem returnAxle_of_vehicle {q : Nat} (assigned : a.vehicle = some q) : returnAxle m = revertVehicle q m.returned := by
  unfold AxleTracker.find at held
  unfold returnAxle AxleTracker.find
  simp only [modifyCtx, held, assigned]
  rfl

end

/-- R140, R151: a COMPLETE vehicle reverted in the list. -/
theorem revertVehicle_list (q : Nat) (m : State) :
    (revertVehicle q m).asm.list =
      m.asm.list.map fun v =>
        if v.sequence = q ∧ v.isComplete = true then
          { v with state := .formed, resolution := if v.isWaiting then .unresolved else v.resolution }
        else v := by
  refine List.map_congr_left fun v _ => ?_
  dsimp only
  by_cases same : v.sequence = q
  · by_cases complete : v.isComplete = true
    · rw [if_pos same, if_pos complete, if_pos ⟨same, complete⟩]
      unfold Vehicle.revert Vehicle.isWaiting
      cases v.resolution <;> rfl
    · rw [if_pos same, if_neg complete, if_neg fun h => complete h.2]
  · rw [if_neg same, if_neg fun h => same h.1]

section
variable (m : State)

/-- What a return writes beside the bound and its count, by the record of the axle (R75, R140). -/
theorem returnAxle_spec :
    (returnAxle m).axles.firstOn = m.axles.firstOn - 1 ∧ (returnAxle m).axles.lastOn = m.axles.lastOn ∧
      (returnAxle m).train.ctx =
        (m.train.ctx.map fun c => { c with returns := c.returns + 1 }).map
          (if m.axles.find (m.axles.firstOn - 1) = none then
            fun c => { c with returnedAfterRelease := c.returnedAfterRelease + 1 }
          else id) ∧
      (returnAxle m).asm =
        ((m.axles.find (m.axles.firstOn - 1)).bind AxleRecord.vehicle).elim m.asm fun q => (revertVehicle q m).asm := by
  cases held : m.axles.find (m.axles.firstOn - 1) with
  | none =>
    rw [returnAxle_of_none held]
    exact ⟨rfl, rfl, rfl, rfl⟩
  | some a =>
    rw [if_neg (by simp), Option.map_id, Option.bind_some]
    cases assigned : a.vehicle with
    | none =>
      rw [returnAxle_of_free held assigned]
      exact ⟨rfl, rfl, rfl, rfl⟩
    | some q =>
      rw [returnAxle_of_vehicle held assigned]
      exact ⟨rfl, rfl, rfl, rfl⟩

theorem returnAxle_find (j : Nat) :
    (returnAxle m).axles.find j =
      (m.axles.find j).map fun a =>
        if j = m.axles.firstOn - 1 then { a with flags := a.flags ||| AxleFlag.disturbed.mask } else a := by
  cases held : m.axles.find (m.axles.firstOn - 1) with
  | none =>
    rw [returnAxle_of_none held]
    by_cases newest : j = m.axles.firstOn - 1
    · rw [newest, held]
      exact held
    · simp only [newest, if_false]
      exact (congrFun Option.map_id _).symm
  | some a =>
    cases assigned : a.vehicle with
    | none =>
      rw [returnAxle_of_free held assigned]
      exact returned_find m j
    | some q =>
      rw [returnAxle_of_vehicle held assigned]
      exact returned_find m j

end

/-- The newest cleared axle returned (R75, R140). -/
theorem reversed_returnAxle {s m : State} {keeps : Nat → Prop} (h : Reversed s s.axles.On keeps m)
    (firstOn : m.axles.firstOn = s.axles.firstOn) (cleared : 1 < s.axles.firstOn) :
    Reversed s (fun j => s.axles.On j ∨ j + 1 = s.axles.firstOn) (fun j => keeps j ∧ True) (returnAxle m) := by
  have fresh (j : Nat) (newest : j + 1 = s.axles.firstOn) : ¬s.axles.On j := fun on => by
    have := on.1
    omega
  have returned : Reversed s (fun j => s.axles.On j ∨ j + 1 = s.axles.firstOn) (fun j => keeps j ∧ True) m.returned := by
    refine h.step (fun j => j + 1 = s.axles.firstOn) (fun _ => True) fresh rfl ⟨_, rfl⟩ (fun _ => rfl) rfl rfl
      (List.length_map ..) fun j b held => ?_
    have found := returned_find m j
    have same : j = m.axles.firstOn - 1 ↔ j + 1 = s.axles.firstOn := by omega
    rw [held, Option.map_some] at found
    refine ⟨_, found, ?_, fun newest => ?_, fun other => ?_, fun _ => ?_⟩
    · split <;> rfl
    · rw [if_pos (same.2 newest)]
    · rw [if_neg (mt same.1 other)]
    · split <;> rfl
  cases held : m.axles.find (m.axles.firstOn - 1) with
  | none =>
    rw [returnAxle_of_none held]
    refine h.step (fun j => j + 1 = s.axles.firstOn) (fun _ => True) fresh rfl ⟨_, rfl⟩ (fun _ => rfl) rfl rfl rfl
      fun j b found => ⟨b, found, rfl, fun newest => ?_, fun _ => rfl, fun _ => rfl⟩
    rw [show m.axles.firstOn - 1 = j by omega, found] at held
    cases held
  | some a =>
    cases assigned : a.vehicle with
    | none =>
      rw [returnAxle_of_free held assigned]
      exact returned
    | some q =>
      rw [returnAxle_of_vehicle held assigned]
      exact { returned with frame := by rw [returned.frame]; rfl }

/-! ## What the acts behind the motion effects count -/

theorem unexpected_counts {s m : State} {n : Counter → Nat} (counts : s.Counts m n []) (p : Passage) :
    s.Counts (unexpected p m) n [.countMismatch] := by
  have one := counts.trans (raiseCause_counts .countMismatch p.pair.code m) fun _ _ => rfl
  exact one.congr rfl rfl rfl rfl

theorem backOut_tallies (m : State) : (backOut m).counters = m.counters ∧ (backOut m).notices = m.notices := by
  have dissolved : (dissolveVehicle (m.axles.lastOn - 1) m.backed).counters = m.counters ∧
      (dissolveVehicle (m.axles.lastOn - 1) m.backed).notices = m.notices := by
    cases dissolves : m.backed.dissolvable (m.axles.lastOn - 1) with
    | none =>
      rw [dissolveVehicle_of_none dissolves]
      exact ⟨rfl, rfl⟩
    | some x =>
      rw [dissolveVehicle_of_some dissolves]
      exact ⟨rfl, rfl⟩
  have frame := (considerFormation_formed (dissolveVehicle (m.axles.lastOn - 1) m.backed)).frame
  rw [backOut_eq, frame]
  exact dissolved

theorem returnAxle_tallies (m : State) : (returnAxle m).counters = m.counters ∧ (returnAxle m).notices = m.notices := by
  cases held : m.axles.find (m.axles.firstOn - 1) with
  | none =>
    rw [returnAxle_of_none held]
    exact ⟨rfl, rfl⟩
  | some a =>
    cases assigned : a.vehicle with
    | none =>
      rw [returnAxle_of_free held assigned]
      exact ⟨rfl, rfl⟩
    | some q =>
      rw [returnAxle_of_vehicle held assigned]
      exact ⟨rfl, rfl⟩

/-- A reverse passage of a train, whichever act it carries out (R54, R97, R99). -/
theorem reverse_spec {s : State} {c : TrainContext} {p : Passage} (context : s.train.ctx = some c)
    (reverse : p.sense ≠ c.direction.forward) :
    ∃ disturbs keeps : Nat → Prop,
      Reversed s disturbs keeps (classify p s.resumed) ∧
        s.Counts (classify p s.resumed) (Counter.ofEvent .zoneRejects s.undecidedRails) [.countMismatch] ∧
          (∀ j, disturbs j ↔
            s.axles.On j ∨ (p.pair ≠ c.direction.entryPair ∧ 1 < s.axles.firstOn ∧ j + 1 = s.axles.firstOn)) ∧
            ∀ j, ¬(p.pair = c.direction.entryPair ∧ s.axles.firstOn ≤ s.axles.lastOn ∧ j = s.axles.lastOn) → keeps j := by
  have motion := reversed_motion context
  have counts := reversed_counts s
  have bounds : (reverseMotion s.resumed).axles.firstOn = s.axles.firstOn ∧
      (reverseMotion s.resumed).axles.lastOn = s.axles.lastOn := by
    rw [reversed_eq context]
    exact ⟨rfl, rfl⟩
  by_cases entry : p.pair = c.direction.entryPair
  · by_cases on : s.axles.firstOn ≤ s.axles.lastOn
    · rw [classify_backout context reverse entry on]
      generalize reverseMotion s.resumed = m at motion counts bounds
      refine ⟨_, _, (reversed_dissolved (reversed_backed motion) (m.axles.lastOn - 1)).consider,
        (State.Counts.mono (counts.congr rfl rfl (backOut_tallies m).1 (backOut_tallies m).2) (by simp)), fun j => ?_, fun j other => ?_⟩
      · simp [entry]
      · rw [bounds.2]
        exact ⟨⟨trivial, fun last => other ⟨entry, on, last⟩⟩, trivial⟩
    · rw [classify_reverse_unexpected context reverse (.inl ⟨entry, Nat.not_le.1 on⟩)]
      refine ⟨_, _, reversed_unexpected motion p, unexpected_counts counts p,
        fun j => ?_, fun j _ => ⟨trivial, trivial⟩⟩
      simp [entry]
  · by_cases cleared : 1 < s.axles.firstOn
    · rw [classify_return context reverse entry cleared]
      generalize reverseMotion s.resumed = m at motion counts bounds
      refine ⟨_, _, reversed_returnAxle motion bounds.1 cleared,
        State.Counts.mono (counts.congr rfl rfl (returnAxle_tallies m).1 (returnAxle_tallies m).2) (by simp), fun j => ?_,
        fun j _ => ⟨trivial, trivial⟩⟩
      simp [entry, cleared]
    · rw [classify_reverse_unexpected context reverse (.inr ⟨entry, Nat.not_lt.1 cleared⟩)]
      refine ⟨_, _, reversed_unexpected motion p, unexpected_counts counts p,
        fun j => ?_, fun j _ => ⟨trivial, trivial⟩⟩
      simp [cleared]

theorem noEstimates_get (ch : Fin 8) : noEstimates[ch] = none := by
  revert ch
  decide

section
variable (s : State) (ordinal : Nat)

/-- A dissolution writes the Assembly List and the vehicles that records name (R72, R141). -/
theorem dissolveVehicle_frame :
    dissolveVehicle ordinal s =
      { s with
        asm := (dissolveVehicle ordinal s).asm
        axles := { s.axles with queue := (dissolveVehicle ordinal s).axles.queue } } := by
  cases dissolves : s.dissolvable ordinal with
  | none => rw [dissolveVehicle_of_none dissolves]
  | some x =>
    rw [dissolveVehicle_of_some dissolves]
    rfl

theorem dissolveVehicle_asm :
    (dissolveVehicle ordinal s).asm =
      (s.dissolvable ordinal).elim s.asm fun x =>
        { s.asm with list := s.asm.list.dropLast, nextSeq := s.asm.nextSeq - 1, firstFree := x.first } := by
  cases dissolves : s.dissolvable ordinal with
  | none => rw [dissolveVehicle_of_none dissolves, Option.elim_none]
  | some x => rw [dissolveVehicle_of_some dissolves, Option.elim_some]

variable {s}

theorem dissolveVehicle_find {j : Nat} {a : AxleRecord} (held : s.axles.find j = some a) :
    (dissolveVehicle ordinal s).axles.find j =
      some
        { a with
          vehicle :=
            (s.dissolvable ordinal).elim a.vehicle fun x =>
              if x.first ≤ j ∧ j ≤ x.first + x.count - 1 then none else a.vehicle } := by
  cases dissolves : s.dissolvable ordinal with
  | none =>
    rw [dissolveVehicle_of_none dissolves]
    exact held
  | some x =>
    rw [dissolveVehicle_of_some dissolves]
    refine (s.axles.find_assign x none j).trans ?_
    rw [held, Option.map_some, Option.elim_some]
    obtain rfl : a.ordinal = j := AxleTracker.ordinal_of_find held
    show some (if x.first ≤ a.ordinal ∧ a.ordinal ≤ x.last then { a with vehicle := none } else a) =
      some { a with vehicle := if x.first ≤ a.ordinal ∧ a.ordinal ≤ x.last then none else a.vehicle }
    split <;> rfl

end

/-- A train after a backout, before formation is considered. -/
def State.backedOut (s : State) : State := dissolveVehicle (s.axles.lastOn - 1) (reverseMotion s.resumed).backed

theorem backOut_reverseMotion (s : State) : backOut (reverseMotion s.resumed) = considerFormation s.backedOut := by
  rw [backOut_eq, reverseMotion_lastOn]
  rfl

theorem backed_asm (m : State) : m.backed.asm = m.asm := rfl

section
variable {s : State} {c : TrainContext} (context : s.train.ctx = some c)
include context

theorem reversed_backed_asm : (reverseMotion s.resumed).backed.asm = s.asm := by
  rw [backed_asm, reversed_eq context]

theorem reversed_backed_dissolvable (ordinal : Nat) :
    (reverseMotion s.resumed).backed.dissolvable ordinal = s.dissolvable ordinal := by
  unfold State.dissolvable
  rw [reversed_backed_asm context]

theorem backedOut_control :
    s.backedOut.train.ctx = some { c with disturbed := true, epoch := c.epoch + 1, backouts := c.backouts + 1 } ∧
      s.backedOut.axles.lastOn = s.axles.lastOn - 1 ∧ s.backedOut.axles.firstOn = s.axles.firstOn := by
  have eq := reversed_eq context
  unfold State.backedOut
  generalize reverseMotion s.resumed = m at eq
  rw [dissolveVehicle_frame]
  refine ⟨?_, ?_, ?_⟩
  · show m.train.ctx.map _ = _
    rw [eq]
    rfl
  · show m.axles.lastOn - 1 = _
    rw [eq]
  · show m.axles.firstOn = _
    rw [eq]

theorem backedOut_asm :
    s.backedOut.asm =
      (s.dissolvable (s.axles.lastOn - 1)).elim s.asm fun x =>
        { s.asm with list := s.asm.list.dropLast, nextSeq := s.asm.nextSeq - 1, firstFree := x.first } := by
  unfold State.backedOut
  rw [dissolveVehicle_asm, reversed_backed_dissolvable context, reversed_backed_asm context]

/-- The records after a backout: vehicles but for the one dissolved, no estimate of the axle backed out (R71, R141). -/
theorem backedOut_find {j : Nat} {a : AxleRecord} (held : s.axles.find j = some a) :
    ∃ b, s.backedOut.axles.find j = some b ∧
      b.vehicle =
        ((s.dissolvable (s.axles.lastOn - 1)).elim a.vehicle fun x =>
          if x.first ≤ j ∧ j ≤ x.first + x.count - 1 then none else a.vehicle) ∧
      (j = s.axles.lastOn → ∀ ch : Fin 8, b.estimates[ch] = none) := by
  have found := backed_find (reverseMotion s.resumed) j
  rw [reversed_find, held, Option.map_some, Option.map_some, reverseMotion_lastOn] at found
  have vehicle : (a.moved s).vehicle = a.vehicle := by rw [a.moved_eq]
  have dissolved {b : AxleRecord} (held : (reverseMotion s.resumed).backed.axles.find j = some b) :=
    dissolveVehicle_find (s.axles.lastOn - 1) held
  rw [reversed_backed_dissolvable context] at dissolved
  by_cases last : j = s.axles.lastOn
  · rw [if_pos (show j = s.resumed.axles.lastOn from last)] at found
    refine ⟨_, dissolved found, ?_, fun _ => noEstimates_get⟩
    rw [← vehicle]
  · rw [if_neg (show ¬j = s.resumed.axles.lastOn from last)] at found
    refine ⟨_, dissolved found, ?_, fun here => absurd here last⟩
    rw [← vehicle]

end

end Sys2Proof.Machine

open Sys2Proof Sys2Proof.Machine

/-- Settles O20: the motion effects, and behind them the backout, the return or the count of an unexpected passage. -/
theorem reversePassagesTakeAxlesBack : Obligations.ReversePassagesTakeAxlesBack := by
  unfold Obligations.ReversePassagesTakeAxlesBack
  intro s t p c train context reverse taken
  rw [takePassage_of_train train] at taken
  obtain ⟨disturbs, keeps, reversed, counts, disturbs_iff, keeps_of⟩ := reverse_spec (p := p) context reverse
  have eq := reversed_eq context
  have find := reversed_find s
  have moved := reversed_counts s
  rw [← taken] at reversed counts
  obtain ⟨c', control⟩ := reversed.train
  refine ⟨by rw [control], by rw [control], by rw [reversed.frame]; rfl, reversed.zones, reversed.highest,
    reversed.lowestHeld, reversed.length, fun j a held => ?_, counts, ?_, fun entry on => ?_, fun exit cleared => ?_⟩
  · obtain ⟨b, found, same, disturbed, calm, cancelled⟩ := reversed.records j a held
    refine ⟨b, found, same, ?_, fun other => cancelled (keeps_of j other)⟩
    split
    next on => exact disturbed ((disturbs_iff j).2 on)
    next off => exact calm (mt (disturbs_iff j).1 off)
  · rw [reversed.frame]
  · have last (a : AxleRecord) (held : s.axles.find s.axles.lastOn = some a) : ∃ b,
        t.axles.find s.axles.lastOn = some b ∧ hasAxleFlag b.flags .disturbed = true ∧ b.entryTime = a.entryTime ∧
          b.spacing = a.spacing ∧ b.generation = a.generation := by
      obtain ⟨b, found, same, disturbed, -⟩ := reversed.records _ a held
      refine ⟨b, found, ?_, by rw [same], by rw [same], by rw [same]⟩
      rw [disturbed ((disturbs_iff _).2 (.inl ⟨on, le_refl _⟩))]
      exact hasAxleFlag_disturbed _
    have tallies := backOut_tallies (reverseMotion s.resumed)
    rw [classify_backout context reverse entry on] at taken
    have control := backedOut_control context
    have asm := backedOut_asm context
    have records {j : Nat} {a : AxleRecord} (held : s.axles.find j = some a) := backedOut_find context held
    rw [← taken] at tallies
    rw [backOut_reverseMotion] at taken
    generalize s.backedOut = n at taken control asm records
    have formed := considerFormation_formed n
    rw [← taken] at formed
    have frame := formed.frame
    obtain ⟨ctx, lastOn, firstOn⟩ := control
    refine ⟨by rw [frame]; exact ctx, by rw [frame]; exact lastOn, by rw [frame]; exact firstOn, ?_,
      ⟨n, s.dissolvable (s.axles.lastOn - 1), taken, ?_, fun x => dissolvable_iff s _ x, ?_, fun j a held => ?_⟩,
      fun a held => ?_⟩
    · rw [tallies.2]
      exact moved.2.2 _ (by decide) (by simp)
    · rw [frame]
    · rw [asm]
      cases s.dissolvable (s.axles.lastOn - 1) <;> rfl
    · obtain ⟨b, found, vehicle, -⟩ := records held
      refine ⟨b, found, ?_⟩
      rw [vehicle]
      cases s.dissolvable (s.axles.lastOn - 1) <;> rfl
    · obtain ⟨b, found, -, undecided⟩ := records held
      obtain ⟨d, there, flagged, times⟩ := last a held
      obtain ⟨f, find'⟩ := formed.find s.axles.lastOn
      rw [found, there] at find'
      cases find'
      exact ⟨_, there, undecided rfl, flagged, times⟩
  · have tallies := returnAxle_tallies (reverseMotion s.resumed)
    rw [classify_return context reverse exit cleared] at taken
    rw [← taken] at tallies
    have control := returnAxle_spec (reverseMotion s.resumed)
    have found := returnAxle_find (reverseMotion s.resumed)
    rw [← taken, reverseMotion_firstOn] at control found
    generalize reverseMotion s.resumed = m at taken eq find moved tallies control found
    obtain ⟨firstOn, lastOn, ctx, asm⟩ := control
    have bounds : m.axles.lastOn = s.axles.lastOn := by rw [eq]
    have list : m.asm = s.asm := by rw [eq]
    have context' : m.train.ctx = some { c with disturbed := true, epoch := c.epoch + 1 } := by rw [eq]
    have named : ((m.axles.find (s.axles.firstOn - 1)).bind AxleRecord.vehicle) =
        (s.axles.find (s.axles.firstOn - 1)).bind AxleRecord.vehicle := by
      rw [find]
      cases s.axles.find (s.axles.firstOn - 1) with
      | none => rfl
      | some a =>
        rw [Option.map_some, Option.bind_some, a.moved_eq]
        rfl
    have held_iff : m.axles.find (s.axles.firstOn - 1) = none ↔ s.axles.find (s.axles.firstOn - 1) = none := by
      rw [find, Option.map_eq_none_iff]
    rw [show s.resumed.axles.firstOn = s.axles.firstOn from rfl] at firstOn ctx asm found
    rw [named] at asm
    refine ⟨firstOn, lastOn.trans bounds, ?_, fun j a held => ?_, fun none => ?_, fun q some => ?_, fun none => ?_,
      fun a held => ⟨?_, ?_⟩⟩
    · rw [tallies.2]
      exact moved.2.2 _ (by decide) (by simp)
    · obtain ⟨b, there, -⟩ := reversed.records j a held
      have vehicle : (a.moved s).vehicle = a.vehicle := by rw [a.moved_eq]
      refine ⟨b, there, ?_⟩
      rw [found, find, held, Option.map_some, Option.map_some, Option.some.injEq] at there
      rw [← there, ← vehicle]
      split <;> rfl
    · rw [asm, none, Option.elim_none, list]
    · rw [asm, some, Option.elim_some, ← list, ← revertVehicle_list]
      rfl
    · rw [ctx, context', if_pos (held_iff.2 none)]
      rfl
    · rw [ctx, context', if_neg (mt held_iff.1 (by rw [held]; simp)), Option.map_id]
      rfl
    · obtain ⟨b, there, same, disturbed, -⟩ := reversed.records _ a held
      refine ⟨b, there, ?_, by rw [same], by rw [same], by rw [same]⟩
      rw [disturbed ((disturbs_iff _).2 (.inr ⟨exit, cleared, by omega⟩))]
      exact hasAxleFlag_disturbed _

end

section
/-! An entry handed on: the estimates decided at prediction, the windows placed, the record in the queue (R70, R76, R84, R90,
R91, R97). -/

namespace Sys2Proof.Machine

/-! ## The conditions given at prediction (R91) -/

/-- An estimate decided at prediction. -/
def foreseenHand (j generation : Nat) (c : Condition) (ch : Fin 8) : Handed :=
  { ordinal := j, generation, channel := ch, condition := c, mass := none, belowZero := false, aboveRange := false
    zeroSuspect := false }

/-- The estimates of both rails of zones decided at prediction. -/
def foreseenHands (j generation : Nat) (k : Fin 4 → Option Condition) (zs : List (Fin 4)) : List Handed :=
  zs.flatMap fun z =>
    (k z).elim [] fun c => [channelOf z .north, channelOf z .south].map (foreseenHand j generation c)

theorem predictionCondition_ne_valid (time : Scan) (nMin tol : Nat) (list : List Window) (w : Window) :
    predictionCondition time nMin tol list w ≠ some .valid := by
  unfold predictionCondition
  split
  · simp
  split
  · simp
  split
  · simp
  split
  · split <;> simp
  · simp

section
variable {n j generation : Nat} {a : AxleRecord} (ordinal : a.ordinal = j) (entered : j ≤ n)
  (current : a.generation = generation) (open' : a.finalized = false)
include ordinal entered current open'

/-- An undecided estimate takes the condition given at prediction, and no flag comes of it. -/
theorem AxleRecord.takeEstimates_foreseen {ch : Fin 8} (undecided : a.estimates[ch] = none) (c : Condition) :
    a.takeEstimates n [foreseenHand j generation c ch] =
      { a with estimates := a.estimates.set ch (some { condition := c, mass := none }) } := by
  have none : a.flags ||| axleFlagIf false .underzero ||| axleFlagIf false .overrange ||| axleFlagIf false .zeroSuspect =
      a.flags := by simp [axleFlagIf]
  refine (if_pos ordinal.symm).trans ((if_pos ⟨ordinal ▸ entered, current.symm, open', undecided⟩).trans ?_)
  show { a with
    estimates := _
    flags := a.flags ||| axleFlagIf false .underzero ||| axleFlagIf false .overrange ||| axleFlagIf false .zeroSuspect } = _
  rw [none]
  rfl

/-- Both rails of a zone take the condition. -/
theorem AxleRecord.takeEstimates_zone {z : Fin 4} (undecided : ∀ r, a.estimates[channelOf z r] = none) (c : Condition) :
    ∃ e : Vector (Option Estimate) 8,
      a.takeEstimates n ([channelOf z .north, channelOf z .south].map (foreseenHand j generation c)) =
          { a with estimates := e } ∧
        ∀ y r, e[channelOf y r] =
          if y = z then some { condition := c, mass := none } else a.estimates[channelOf y r] := by
  have apart : (channelOf z .north).val ≠ (channelOf z .south).val := fun e => by
    cases (channelOf_inj (Fin.ext e)).2
  have first := takeEstimates_foreseen ordinal entered current open' (undecided .north) c
  have second := takeEstimates_foreseen
    (a := { a with estimates := a.estimates.set (channelOf z .north) (some { condition := c, mass := none }) }) ordinal entered
    current open' (ch := channelOf z .south) (by simpa [apart] using undecided .south) c
  refine ⟨(a.estimates.set (channelOf z .north) (some { condition := c, mass := none })).set (channelOf z .south)
    (some { condition := c, mass := none }), ?_, fun y r => ?_⟩
  · rw [List.map_cons, List.map_singleton, ← List.singleton_append, takeEstimates_append, first, second]
  · by_cases same : y = z
    · subst same
      cases r <;> simp [apart.symm]
    · have other (q : Rail) : (channelOf z q).val ≠ (channelOf y r).val := fun e =>
        same (channelOf_inj (Fin.ext e)).1.symm
      simp [same, other]

end

/-- A fresh record takes the conditions of the zones decided at prediction (R70, R91). -/
theorem AxleRecord.takeEstimates_foreseenHands {n j generation : Nat} (k : Fin 4 → Option Condition) {zs : List (Fin 4)}
    (distinct : zs.Nodup) {a : AxleRecord} (ordinal : a.ordinal = j) (entered : j ≤ n)
    (current : a.generation = generation) (open' : a.finalized = false)
    (undecided : ∀ z ∈ zs, ∀ r, a.estimates[channelOf z r] = none) :
    ∃ e : Vector (Option Estimate) 8,
      a.takeEstimates n (foreseenHands j generation k zs) = { a with estimates := e } ∧
        ∀ z r, e[channelOf z r] =
          if z ∈ zs then (k z).map fun c => { condition := c, mass := none } else a.estimates[channelOf z r] := by
  induction zs generalizing a with
  | nil => exact ⟨a.estimates, rfl, fun z r => (if_neg List.not_mem_nil).symm⟩
  | cons y zs ih =>
    obtain ⟨new, distinct⟩ := List.nodup_cons.1 distinct
    obtain ⟨here, later⟩ := List.forall_mem_cons.1 undecided
    have hands : foreseenHands j generation k (y :: zs) =
        ((k y).elim [] fun c => [channelOf y .north, channelOf y .south].map (foreseenHand j generation c)) ++
          foreseenHands j generation k zs := List.flatMap_cons
    rw [hands, takeEstimates_append]
    cases condition : k y with
    | none =>
      obtain ⟨e, eq, get⟩ := ih distinct ordinal current open' later
      refine ⟨e, eq, fun z r => (get z r).trans ?_⟩
      by_cases same : z = y
      · subst same
        simp [new, condition, here]
      · simp [same]
    | some c =>
      obtain ⟨e, eq, get⟩ := takeEstimates_zone ordinal entered current open' here c
      rw [Option.elim_some, eq]
      obtain ⟨f, eq', get'⟩ := ih distinct (a := { a with estimates := e }) ordinal current open' fun z mem r => by
        rw [get, if_neg fun same : z = y => new (by rwa [← same])]
        exact later z mem r
      refine ⟨f, eq', fun z r => (get' z r).trans ?_⟩
      by_cases same : z = y
      · subst same
        simp [new, condition, get]
      · simp [same, get]

/-- Records of other ordinals take nothing. -/
theorem AxleRecord.takeEstimates_of_other {n : Nat} {hs : List Handed} {a : AxleRecord}
    (other : ∀ h ∈ hs, h.ordinal ≠ a.ordinal) : a.takeEstimates n hs = a := by
  induction hs with
  | nil => rfl
  | cons h hs ih =>
    obtain ⟨here, later⟩ := List.forall_mem_cons.1 other
    exact (congrArg (takeEstimates n hs) (if_neg here)).trans (ih later)

theorem foreseenHands_ordinal {j generation : Nat} {k : Fin 4 → Option Condition} {zs : List (Fin 4)} :
    ∀ h ∈ foreseenHands j generation k zs, h.ordinal = j := by
  intro h mem
  obtain ⟨z, -, mem⟩ := List.mem_flatMap.1 mem
  cases condition : k z with
  | none => simp [condition] at mem
  | some c =>
    rw [condition, Option.elim_some] at mem
    obtain ⟨ch, -, rfl⟩ := List.mem_map.1 mem
    rfl

/-! ## Rails decided at prediction, counted (R97) -/

theorem finRange_eight : List.finRange 8 = (List.finRange 4).flatMap fun z => [channelOf z .north, channelOf z .south] := by
  decide

theorem sum_map_filter {α : Type} (p : α → Bool) (f : α → Nat) (l : List α) :
    ((l.filter p).map f).sum = (l.map fun x => if p x then f x else 0).sum := by
  induction l with
  | nil => rfl
  | cons x l ih => cases here : p x <;> simp [here, ih]

/-- The rails decided in a fresh record are the occurrences of ZONE_REJECTS (R91, R97). -/
theorem rejects_foreseenHands (j generation : Nat) {k : Fin 4 → Option Condition} (rejected : ∀ z, k z ≠ some .valid)
    (p : Fin 4 → Bool) {a : AxleRecord}
    (estimates : ∀ z r, a.estimates[channelOf z r] =
      if p z then (k z).map fun c => { condition := c, mass := none } else none) :
    rejects (foreseenHands j generation k ((List.finRange 4).filter p)) = a.decidedRails := by
  unfold foreseenHands AxleRecord.decidedRails
  rw [rejects_flatMap, sum_map_filter, finRange_eight, List.filter_flatMap, List.length_flatMap]
  refine congrArg List.sum (List.map_congr_left fun z _ => ?_)
  have north := estimates z .north
  have south := estimates z .south
  cases used : p z with
  | false => simp [used] at north south; simp [north, south]
  | true =>
    cases condition : k z with
    | none => simp [used, condition] at north south; simp [north, south]
    | some c =>
      have := rejected z
      rw [condition] at this
      simp [used, condition] at north south
      simp [north, south, rejects, foreseenHand, show c ≠ .valid from fun e => this (by rw [e])]

/-! ## The prediction of an entry (R70, R90) -/

/-- The geometry of a zone, where the section has it. -/
def Calibration.spanOf (c : Calibration) (z : Fin 4) : Option (GeometryRecord × ZoneSpan) :=
  c.geometry.bind fun g => (g.zones[z.val]?).map fun span => (g, span)

section
variable (s : State) (j generation : Nat) (tRef : T16) (pace : Nat) (z : Fin 4)

/-- The condition that a zone gives an entry at prediction (R91). -/
def State.foreseen : Option Condition :=
  (s.cal.spanOf z).bind fun x =>
    predictionCondition s.rx.time s.cal.limits.nMin s.cal.limits.tol s.zones[z].windows
      (zoneWindow x.1 s.direction s.cal.limits.trimEighths x.2 j generation tRef pace)

theorem foreseen_ne_valid : s.foreseen j generation tRef pace z ≠ some .valid := by
  unfold State.foreseen
  cases s.cal.spanOf z with
  | none => simp
  | some x => exact predictionCondition_ne_valid _ _ _ _ _

theorem predictAt_hands :
    (s.predictAt j generation tRef pace z s.zones[z]).2 =
      (s.foreseen j generation tRef pace z).elim [] fun c =>
        [channelOf z .north, channelOf z .south].map (foreseenHand j generation c) := by
  unfold State.predictAt State.foreseen Calibration.spanOf
  cases s.cal.geometry.bind fun g => (g.zones[z.val]?).map fun span => (g, span) with
  | none => rfl
  | some x =>
    dsimp only [Option.bind_some]
    unfold ZoneUnit.predict
    rw [show (s.cal.zoneTables z).tol = s.cal.limits.tol from rfl]
    cases predictionCondition s.rx.time s.cal.limits.nMin s.cal.limits.tol s.zones[z].windows
      (zoneWindow x.1 s.direction s.cal.limits.trimEighths x.2 j generation tRef pace) <;> rfl

theorem predictAt_allHands :
    (s.cal.zonesInUse.flatMap fun z => (s.predictAt j generation tRef pace z s.zones[z]).2) =
      foreseenHands j generation (s.foreseen j generation tRef pace) s.cal.zonesInUse := by
  unfold foreseenHands
  simp only [predictAt_hands]

variable {s j generation tRef pace z}

/-- A zone in use places its window, DONE where it is decided at once (R84, R91). -/
theorem predictAt_unit {x : GeometryRecord × ZoneSpan} (span : s.cal.spanOf z = some x) {w : Window} {k : Option Condition}
    (window : w = zoneWindow x.1 s.direction s.cal.limits.trimEighths x.2 j generation tRef pace)
    (condition : k = predictionCondition s.rx.time s.cal.limits.nMin s.cal.limits.tol s.zones[z].windows w) :
    (s.predictAt j generation tRef pace z s.zones[z]).1 =
      s.zones[z].place (s.cal.zoneTables z) s.rx.time (k.elim w fun c => w.decidedAs c) := by
  unfold Calibration.spanOf at span
  unfold State.predictAt
  rw [span]
  subst condition window
  refine (ZoneUnit.predict_fst ..).trans ?_
  rw [show (s.cal.zoneTables z).tol = s.cal.limits.tol from rfl]
  cases predictionCondition s.rx.time s.cal.limits.nMin s.cal.limits.tol s.zones[z].windows
    (zoneWindow x.1 s.direction s.cal.limits.trimEighths x.2 j generation tRef pace) <;> rfl

end

theorem zonesInUse_eq (c : Calibration) : c.zonesInUse = (List.finRange 4).filter fun z => decide (z.val < c.zoneCount) := rfl

/-- From u to m an entry with the record `a` was predicted with a pace; `b` is its record after (R70, R90, R91, R97). -/
structure Predicted (u m : State) (j pace : Nat) (a b : AxleRecord) : Prop where
  frame :
    m = { u with
          zones := m.zones, axles := { u.axles with queue := m.axles.queue }, counters := m.counters
          notices := m.notices }
  length : m.axles.queue.length = u.axles.queue.length
  held : m.axles.find j = some b
  record : b = { a with estimates := b.estimates }
  others : ∀ i, i ≠ j → m.axles.find i = u.axles.find i
  counts : u.Counts m (Counter.ofEvent .zoneRejects b.decidedRails) []
  predicts : u.Predicts m u.direction b pace

theorem predictWindows_predicted {u : State} {j pace : Nat} {a : AxleRecord} (held : u.axles.find j = some a)
    (entered : j ≤ u.axles.lastOn) (open' : a.finalized = false) (fresh : a.estimates = noEstimates) :
    ∃ b, Predicted u (predictWindows j a.generation a.entryTime pace u) j pace a b := by
  have passed := predictWindows_passed j a.generation a.entryTime pace u
  have ordinal : a.ordinal = j := AxleTracker.ordinal_of_find held
  generalize predictWindows j a.generation a.entryTime pace u = m at passed
  obtain ⟨frame, zones, counts⟩ := passed
  rw [predictAt_allHands] at frame counts
  obtain ⟨e, taken, estimates⟩ := AxleRecord.takeEstimates_foreseenHands (n := u.axles.lastOn)
    (u.foreseen j a.generation a.entryTime pace) u.cal.zonesInUse_nodup ordinal entered rfl open' fun z _ r => by
      rw [fresh, noEstimates_get]
  have used (z : Fin 4) : z ∈ u.cal.zonesInUse ↔ decide (z.val < u.cal.zoneCount) = true := by
    rw [u.cal.mem_zonesInUse, decide_eq_true_iff]
  simp only [fresh, noEstimates_get, used] at estimates
  have find (i : Nat) : m.axles.find i = (u.axles.find i).map (AxleRecord.takeEstimates u.axles.lastOn
      (foreseenHands j a.generation (u.foreseen j a.generation a.entryTime pace) u.cal.zonesInUse)) :=
    AxleTracker.find_of_map (by rw [frame]) (AxleRecord.takeEstimates_ordinal _ _) i
  refine ⟨{ a with estimates := e }, ?_, ?_, ?_, rfl, fun i other => ?_, ?_, fun z => ⟨fun unused => ⟨?_, fun r => ?_⟩,
    fun g span w k geometry zone window condition => ?_⟩⟩
  · rw [frame]
  · rw [frame, List.length_map]
  · rw [find, held, Option.map_some, taken]
  · rw [find]
    cases there : u.axles.find i with
    | none => rfl
    | some c =>
      rw [Option.map_some, AxleRecord.takeEstimates_of_other]
      intro h mem
      rw [foreseenHands_ordinal h mem, AxleTracker.ordinal_of_find there]
      exact other.symm
  · rw [zonesInUse_eq, rejects_foreseenHands (a := { a with estimates := e }) j a.generation
      (fun z => foreseen_ne_valid u j a.generation a.entryTime pace z) _ estimates] at counts
    exact counts
  · rw [zones, if_neg]
    rw [used, decide_eq_true_iff]
    exact Nat.not_lt.2 unused
  · exact (estimates z r).trans (if_neg (by rw [decide_eq_true_iff]; exact Nat.not_lt.2 unused))
  · have here : u.cal.spanOf z = some (g, span) := by
      unfold Calibration.spanOf
      rw [geometry, Option.bind_some, zone, Option.map_some]
    have used' : decide (z.val < u.cal.zoneCount) = true := by
      obtain ⟨below, -⟩ := List.getElem?_eq_some_iff.1 zone
      unfold Calibration.zoneCount
      rw [geometry]
      exact decide_eq_true below
    rw [show ({ a with estimates := e } : AxleRecord).ordinal = j from ordinal] at window
    have foreseen : u.foreseen j a.generation a.entryTime pace z = k := by
      unfold State.foreseen
      rw [here, condition, window]
      rfl
    have unit := predictAt_unit here window condition
    have inScan : (k.elim w fun c => w.decidedAs c).inScan = w.inScan := by cases k <;> rfl
    rw [zones, if_pos ((used z).2 used'), unit]
    refine ⟨fun r => ?_, ?_, fun r => ?_⟩
    · rw [← foreseen]
      exact (estimates z r).trans (if_pos used')
    · rw [ZoneUnit.place_windows]
      cases k <;> rfl
    · rw [ZoneUnit.place_channel, inScan]
      exact if_congr (and_congr_right fun _ => and_congr (atOrBefore_iff _ _) (by rw [u.cal.zoneTables_record])) rfl rfl

end Sys2Proof.Machine
end

section
/-! Entries: a new ordinal, a re-entry, an entry limit (R58, R66 to R70). -/

namespace Sys2Proof.Machine

/-! ## A record handed on (R45, R70) -/

/-- The train at an entry. -/
def State.entryTrain (s : State) (c : TrainContext) : TrainControl :=
  { s.train with
    state := .running
    ctx := some { c with entries := c.entries + 1 }
    quiet := some (s.rx.time + BitVec.ofNat 32 s.settings.quietTime) }

/-- From s the entry of ordinal j was carried out up to the consideration: x holds its bounds, r its record before it was
handed on, and b is its record in m (R70). -/
structure Carried (s : State) (c : TrainContext) (p : Passage) (j : Nat) (x : AxleTracker) (r : AxleRecord) (m : State)
    (b : AxleRecord) : Prop where
  frame :
    m = { s with
          train := s.entryTrain c, pace := s.pace.take p.ownPace, zones := m.zones
          axles := { x with queue := m.axles.queue }, counters := m.counters, notices := m.notices }
  length : m.axles.queue.length = x.queue.length
  held : m.axles.find j = some b
  record : b = { r.takeReport (s.pace.take p.ownPace) p.ownPace with estimates := b.estimates }
  others : ∀ i, i ≠ j → m.axles.find i = x.find i
  counts : s.Counts m (Counter.ofEvent .zoneRejects b.decidedRails) []
  predicts : s.Predicts m c.direction b ((s.pace.take p.ownPace).report p.ownPace).1

section
variable {s : State} {c : TrainContext} {p : Passage} {j : Nat} {x : AxleTracker} {r : AxleRecord}

/-- A record in the queue handed on to the Pace Tracker and the Zone Units (R45, R70). -/
theorem handOn_carried (held : x.find j = some r) (entered : j ≤ x.lastOn) (open' : r.finalized = false)
    (fresh : r.estimates = noEstimates) :
    ∃ b, Carried s c p j x r (handOn j p { s with train := s.entryTrain c, axles := x }) b := by
  have reported (i : Nat) :
      (x.modify j (AxleRecord.takeReport (s.pace.take p.ownPace) p.ownPace)).find i =
        if i = j then (x.find i).map (AxleRecord.takeReport (s.pace.take p.ownPace) p.ownPace) else x.find i :=
    AxleTracker.find_modify x j i _ fun _ => rfl
  have here : (x.modify j (AxleRecord.takeReport (s.pace.take p.ownPace) p.ownPace)).find j =
      some (r.takeReport (s.pace.take p.ownPace) p.ownPace) := by
    rw [reported, if_pos rfl, held, Option.map_some]
  have handed : handOn j p { s with train := s.entryTrain c, axles := x } =
      predictWindows j (r.takeReport (s.pace.take p.ownPace) p.ownPace).generation
        (r.takeReport (s.pace.take p.ownPace) p.ownPace).entryTime ((s.pace.take p.ownPace).report p.ownPace).1
        { s with
          train := s.entryTrain c, pace := s.pace.take p.ownPace
          axles := x.modify j (AxleRecord.takeReport (s.pace.take p.ownPace) p.ownPace) } := by
    unfold handOn takePace modifyAxle
    simp only [here]
  obtain ⟨b, predicted⟩ := predictWindows_predicted
    (u := { s with
      train := s.entryTrain c, pace := s.pace.take p.ownPace
      axles := x.modify j (AxleRecord.takeReport (s.pace.take p.ownPace) p.ownPace) })
    (pace := ((s.pace.take p.ownPace).report p.ownPace).1) here entered open' fresh
  refine ⟨b, ?_⟩
  rw [← handed] at predicted
  generalize handOn j p _ = m at predicted
  refine ⟨predicted.frame, predicted.length.trans (List.length_map ..), predicted.held, predicted.record, fun i other => ?_,
    predicted.counts, predicted.predicts⟩
  rw [predicted.others i other]
  exact (reported i).trans (if_neg other)

end

/-- A prediction is that of the zones, the tables and T, and of what names the entry and its estimates. -/
theorem State.Predicts.congr {s t u : State} {d : Direction} {a b : AxleRecord} {pace : Nat} (h : s.Predicts t d a pace)
    (zones : u.zones = t.zones) (ordinal : b.ordinal = a.ordinal) (generation : b.generation = a.generation)
    (entryTime : b.entryTime = a.entryTime) (estimates : b.estimates = a.estimates) : s.Predicts u d b pace := by
  unfold State.Predicts
  rw [zones, ordinal, generation, entryTime, estimates]
  exact h

/-! ## The spacing before an entry (R69) -/

section
variable {x : AxleTracker} {j pace : Nat} {time : T16} {epoch : Count32}

theorem spacingBefore_of_none (none : x.find j = none) : spacingBefore x (j + 1) time pace epoch = Option.none := by
  unfold spacingBefore
  rw [Nat.add_sub_cancel, none]
  split <;> rfl

/-- The spacing is that to the record before, of the same epoch. -/
theorem spacingBefore_of_some {b : AxleRecord} (held : x.find j = some b) (least : 1 ≤ j) :
    spacingBefore x (j + 1) time pace epoch =
      if b.epoch = epoch then some (min 65535 (roundHalfUp (2000 * (t16Diff time b.entryTime).toNat) pace)) else none := by
  unfold spacingBefore
  rw [Nat.add_sub_cancel, if_neg (by omega), held, Option.bind_some]
  simp only [clamp, Nat.zero_max]

end

/-! ## The entry carried out (R67, R68) -/

section
variable (s : State) (c : TrainContext) (p : Passage)

/-- The record of a new ordinal (R66, R67). -/
def State.entered : AxleRecord :=
  newRecord (s.axles.highest + 1) p c.epoch
    (spacingBefore s.axles (s.axles.highest + 1) p.secondTime p.ownPace c.epoch)

/-- The tracker with a new ordinal (R67). -/
def State.extended : AxleTracker :=
  { s.axles with
    highest := s.axles.highest + 1, lastOn := s.axles.highest + 1, queue := s.axles.queue ++ [s.entered c p] }

/-- The tracker with the ordinal behind last_on entered again, its record refreshed where one is held (R68). -/
def State.refreshed : AxleTracker :=
  ({ s.axles with lastOn := s.axles.lastOn + 1 } : AxleTracker).modify (s.axles.lastOn + 1)
    (AxleRecord.refresh p c.epoch (spacingBefore s.axles (s.axles.lastOn + 1) p.secondTime p.ownPace c.epoch))

variable {s c p}

theorem State.AxlesSound.find_above (sound : s.AxlesSound) {j : Nat} (above : s.axles.highest < j) : s.axles.find j = none := by
  cases held : s.axles.find j with
  | none => rfl
  | some a =>
    have := (sound.2.1 a (AxleTracker.mem_of_find held)).2.1
    rw [AxleTracker.ordinal_of_find held] at this
    omega

theorem State.AxlesSound.one_le (sound : s.AxlesSound) {j : Nat} {a : AxleRecord} (held : s.axles.find j = some a) :
    1 ≤ j := by
  have := (sound.2.1 a (AxleTracker.mem_of_find held)).1
  rwa [AxleTracker.ordinal_of_find held] at this

theorem extended_find (sound : s.AxlesSound) :
    (s.extended c p).find (s.axles.highest + 1) = some (s.entered c p) := by
  have above := sound.find_above (Nat.lt_succ_self s.axles.highest)
  unfold AxleTracker.find at above ⊢
  unfold State.extended
  rw [List.find?_append, above, Option.none_or, List.find?_singleton]
  exact if_pos (beq_self_eq_true (s.axles.highest + 1))

theorem extended_find_of_ne {i : Nat} (other : i ≠ s.axles.highest + 1) : (s.extended c p).find i = s.axles.find i := by
  unfold AxleTracker.find State.extended
  rw [List.find?_append, List.find?_singleton, if_neg, Option.or_none]
  exact fun same => other (eq_of_beq same).symm

theorem refreshed_find (i : Nat) :
    (s.refreshed c p).find i =
      if i = s.axles.lastOn + 1 then
        (s.axles.find i).map
          (AxleRecord.refresh p c.epoch (spacingBefore s.axles (s.axles.lastOn + 1) p.secondTime p.ownPace c.epoch))
      else s.axles.find i :=
  AxleTracker.find_modify _ _ _ _ fun _ => rfl

variable (context : s.train.ctx = some c)
include context

theorem resumed_entered : modifyCtx (fun c => { c with entries := c.entries + 1 }) s.resumed = { s with train := s.entryTrain c } := by
  simp only [modifyCtx, State.resumed, startQuiet, context, Option.map_some]
  rfl

theorem enterNew_eq :
    enterNew p (modifyCtx (fun c => { c with entries := c.entries + 1 }) s.resumed) =
      considerFormation
        (handOn (s.axles.highest + 1) p { s with train := s.entryTrain c, axles := s.extended c p }) := by
  rw [resumed_entered context]
  rfl

theorem reEnter_of_some {a : AxleRecord} (held : s.axles.find (s.axles.lastOn + 1) = some a) :
    reEnter p (modifyCtx (fun c => { c with entries := c.entries + 1 }) s.resumed) =
      considerFormation
        (handOn (s.axles.lastOn + 1) p { s with train := s.entryTrain c, axles := s.refreshed c p }) := by
  have held : ({ s.axles with lastOn := s.axles.lastOn + 1 } : AxleTracker).find (s.axles.lastOn + 1) = some a := held
  rw [resumed_entered context]
  unfold reEnter
  simp only [held]
  rfl

theorem reEnter_of_none (none : s.axles.find (s.axles.lastOn + 1) = none) :
    reEnter p (modifyCtx (fun c => { c with entries := c.entries + 1 }) s.resumed) =
      considerFormation
        { s with
          train := s.entryTrain c, pace := s.pace.take p.ownPace
          axles := { s.axles with lastOn := s.axles.lastOn + 1 } } := by
  have none : ({ s.axles with lastOn := s.axles.lastOn + 1 } : AxleTracker).find (s.axles.lastOn + 1) = Option.none := none
  rw [resumed_entered context]
  unfold reEnter
  simp only [none]
  rfl

end

/-- What an abort keeps of the train and its axles (R58 to R60). -/
theorem abortWith_spec {s : State} {c : TrainContext} (context : s.train.ctx = some c) {reason : EndReason}
    (abort : reason ≠ .quiet) :
    ∃ c' : TrainContext, c'.entries = c.entries ∧ c'.endReason = some reason ∧
      abortWith reason s =
        { s with
          train := { s.train with state := .ending, ctx := some c', quiet := none }
          axles :=
            { s.axles with
              queue := (abortWith reason s).axles.queue, highest := (abortWith reason s).axles.highest }
          zones := (abortWith reason s).zones, asm := (abortWith reason s).asm, notices := (abortWith reason s).notices
          west := (abortWith reason s).west, east := (abortWith reason s).east } := by
  have eq := abortWith_eq s abort
  rw [flushAbort_eq _ (c := { c with endReason := some reason, endScan := some s.rx.time })
    (congrArg (Option.map _) context)] at eq
  generalize abortWith reason s = t at eq
  rw [eq]
  refine ⟨_, ?_, ?_, rfl⟩
  · rfl
  · rfl

/-! ## The classification of an entry (R67, R68) -/

section
variable {s : State} {c : TrainContext} (p : Passage) (context : s.train.ctx = some c)

/-- A limit met ends the train (R58, R67). -/
theorem carryEntry_limit (new : s.axles.highest < s.axles.lastOn + 1)
    (limit : 4095 ≤ s.axles.highest ∨ 128 ≤ s.axles.queue.length) :
    carryEntry p s.resumed =
      abortWith (if 4095 ≤ s.axles.highest then .lengthLimit else .axleOverrun) s.resumed := by
  refine (if_pos new).trans ?_
  by_cases ordinals : 4095 ≤ s.axles.highest
  · rw [if_pos ordinals]
    exact if_pos ordinals
  · rw [if_neg ordinals]
    exact (if_neg ordinals).trans (if_pos (limit.resolve_left ordinals))

include context

theorem carryEntry_new (new : s.axles.highest < s.axles.lastOn + 1) (ordinals : s.axles.highest < 4095)
    (room : s.axles.queue.length < 128) :
    carryEntry p s.resumed =
      considerFormation
        (handOn (s.axles.highest + 1) p { s with train := s.entryTrain c, axles := s.extended c p }) := by
  rw [← enterNew_eq context]
  exact (if_pos new).trans ((if_neg (Nat.not_le.2 ordinals)).trans (if_neg (Nat.not_le.2 room)))

theorem carryEntry_again (backed : s.axles.lastOn < s.axles.highest) {a : AxleRecord}
    (held : s.axles.find (s.axles.lastOn + 1) = some a) :
    carryEntry p s.resumed =
      considerFormation
        (handOn (s.axles.lastOn + 1) p { s with train := s.entryTrain c, axles := s.refreshed c p }) := by
  rw [← reEnter_of_some context held]
  exact if_neg (Nat.not_lt.2 backed)

theorem carryEntry_again_of_none (backed : s.axles.lastOn < s.axles.highest)
    (none : s.axles.find (s.axles.lastOn + 1) = none) :
    carryEntry p s.resumed =
      considerFormation
        { s with
          train := s.entryTrain c, pace := s.pace.take p.ownPace
          axles := { s.axles with lastOn := s.axles.lastOn + 1 } } := by
  rw [← reEnter_of_none context none]
  exact if_neg (Nat.not_lt.2 backed)

end

/-! ## The entry with its consideration -/

/-- What a consideration behind an entry leaves (R130). -/
theorem Carried.consider {s m : State} {c : TrainContext} {p : Passage} {j : Nat} {x : AxleTracker} {r b : AxleRecord}
    (h : Carried s c p j x r m b) :
    ∃ w : Option Nat,
      (considerFormation m).axles.find j = some { b with vehicle := w } ∧
        s.Predicts (considerFormation m) c.direction { b with vehicle := w }
          ((s.pace.take p.ownPace).report p.ownPace).1 ∧
        s.Counts (considerFormation m) (Counter.ofEvent .zoneRejects ({ b with vehicle := w } : AxleRecord).decidedRails) [] := by
  have formed := considerFormation_formed m
  generalize considerFormation m = t at formed
  obtain ⟨f, find⟩ := formed.find j
  have frame := formed.frame
  refine ⟨f b, by rw [find, h.held, Option.map_some], h.predicts.congr (by rw [frame]) rfl rfl rfl rfl, ?_⟩
  exact h.counts.congr rfl rfl (by rw [frame]) (by rw [frame])

/-- What an entry and its consideration write. -/
theorem Carried.frame_consider {s m : State} {c : TrainContext} {p : Passage} {j : Nat} {x : AxleTracker} {r b : AxleRecord}
    (h : Carried s c p j x r m b) :
    ∃ queue, considerFormation m =
      { s with
        train := s.entryTrain c, pace := s.pace.take p.ownPace, zones := m.zones, axles := { x with queue }
        asm := (considerFormation m).asm, counters := m.counters, notices := m.notices } ∧
      queue.length = x.queue.length := by
  have formed := considerFormation_formed m
  have frame := formed.frame
  generalize considerFormation m = t at formed frame
  refine ⟨t.axles.queue, ?_, ?_⟩
  · rw [frame, h.frame]
  · obtain ⟨f, queue⟩ := formed.queue
    rw [queue, List.length_map, h.length]

/-- PACE_UNLOCKED as the Pace Tracker reports it (R45). -/
theorem axleFlagIf_lock (k : Lock) :
    axleFlagIf (k == .none) .paceUnlocked = if k = .none then AxleFlag.paceUnlocked.mask else 0 := by
  cases k <;> rfl

/-- What an entry writes, whichever it is. -/
theorem carryEntry_frame {s : State} {c : TrainContext} (p : Passage) (context : s.train.ctx = some c)
    (sound : s.AxlesSound) {t : State} (carried : t = carryEntry p s.resumed) :
    t = { s with
          train := t.train, axles := t.axles, pace := t.pace, zones := t.zones, asm := t.asm
          counters := t.counters, notices := t.notices, west := t.west, east := t.east } := by
  have consider {j : Nat} {x : AxleTracker} {r b m} (h : Carried s c p j x r m b) (eq : t = considerFormation m) :
      t = { s with
            train := t.train, axles := t.axles, pace := t.pace, zones := t.zones, asm := t.asm
            counters := t.counters, notices := t.notices, west := t.west, east := t.east } := by
    obtain ⟨queue, frame, -⟩ := h.frame_consider
    rw [← eq] at frame
    rw [frame]
  by_cases new : s.axles.highest < s.axles.lastOn + 1
  · by_cases limit : 4095 ≤ s.axles.highest ∨ 128 ≤ s.axles.queue.length
    · obtain ⟨c', -, -, eq⟩ := abortWith_spec (s := s.resumed) (reason :=
        if 4095 ≤ s.axles.highest then .lengthLimit else .axleOverrun) context (by split <;> simp)
      rw [← carryEntry_limit p new limit, ← carried] at eq
      rw [eq]
      rfl
    · obtain ⟨ordinals, room⟩ := not_or.1 limit
      obtain ⟨b, handed⟩ := handOn_carried (c := c) (p := p) (extended_find (c := c) (p := p) sound) (le_refl _) rfl rfl
      exact consider handed (carried.trans (carryEntry_new p context new (Nat.not_le.1 ordinals) (Nat.not_le.1 room)))
  · have backed : s.axles.lastOn < s.axles.highest := Nat.not_lt.1 new
    cases held : s.axles.find (s.axles.lastOn + 1) with
    | none =>
      rw [carryEntry_again_of_none p context backed held] at carried
      have frame := (considerFormation_formed { s with
          train := s.entryTrain c, pace := s.pace.take p.ownPace
          axles := { s.axles with lastOn := s.axles.lastOn + 1 } }).frame
      rw [← carried] at frame
      rw [frame]
    | some a =>
      have here := refreshed_find (s := s) (c := c) (p := p) (s.axles.lastOn + 1)
      rw [if_pos rfl, held, Option.map_some] at here
      obtain ⟨b, handed⟩ := handOn_carried (c := c) (p := p) here (le_refl _) rfl rfl
      exact consider handed (carried.trans (carryEntry_again p context backed held))

end Sys2Proof.Machine

open Sys2Proof Sys2Proof.Machine

/-- Settles O19: a new ordinal, a limit met, or an ordinal entered again, by the bounds. -/
theorem entriesExtendTheSection : Obligations.EntriesExtendTheSection := by
  unfold Obligations.EntriesExtendTheSection
  intro s t p c train context sound forward entry taken
  rw [takePassage_of_train train, classify_entry context forward entry] at taken
  refine ⟨carryEntry_frame p context sound taken, fun whole ordinals room => ?_, fun whole limit => ?_, fun backed => ?_⟩
  · rw [carryEntry_new p context (by omega) ordinals room] at taken
    obtain ⟨b, carried⟩ := handOn_carried (c := c) (p := p) (extended_find (c := c) (p := p) sound) (le_refl _) rfl rfl
    generalize handOn (s.axles.highest + 1) p _ = m at taken carried
    obtain ⟨w, held, predicts, counts⟩ := carried.consider
    obtain ⟨queue, frame, length⟩ := carried.frame_consider
    have formed := considerFormation_formed m
    rw [← taken] at held predicts counts frame formed
    have kept {j : Nat} {a : AxleRecord} (found : s.axles.find j = some a) : m.axles.find j = some a := by
      have other : j ≠ s.axles.highest + 1 := fun same => by
        rw [same, sound.find_above (Nat.lt_succ_self _)] at found
        cases found
      rw [carried.others j other, extended_find_of_ne other, found]
    have pace : t.pace = s.pace.take p.ownPace := by rw [frame]
    have here := carried.held
    obtain ⟨e, record⟩ : ∃ e, b = { (s.entered c p).takeReport (s.pace.take p.ownPace) p.ownPace with estimates := e } :=
      ⟨_, carried.record⟩
    rw [pace]
    refine ⟨by rw [frame]; rfl, by rw [frame]; rfl, by rw [frame, whole]; rfl, by rw [frame]; rfl, by rw [frame]; rfl, ?_, rfl,
      fun j a found => ?_, ⟨m, taken, ?_, fun j a => kept, fun a found => ?_⟩, _, held, predicts, counts, ?_⟩
    · rw [frame]
      exact length.trans List.length_append
    · obtain ⟨f, find⟩ := formed.find j
      exact ⟨f a, by rw [find, kept found, Option.map_some]⟩
    · have := carried.frame
      rw [frame]
      exact this
    · rw [held, Option.some.injEq] at found
      rw [here, ← found, record]
      rfl
    · rw [record]
      refine ⟨rfl, ?_, rfl, rfl, rfl, rfl, rfl, rfl, rfl, rfl, rfl, rfl, rfl, spacingBefore_of_none, fun d before =>
        spacingBefore_of_some before (sound.one_le before)⟩
      exact BitVec.zero_or.trans (axleFlagIf_lock _)
  · have aborts : (if 4095 ≤ s.axles.highest then EndReason.lengthLimit else .axleOverrun) ≠ .quiet := by split <;> simp
    rw [carryEntry_limit p (by omega) limit] at taken
    obtain ⟨c', entries, reason, eq⟩ := abortWith_spec (s := s.resumed) context aborts
    rw [← taken] at eq
    refine ⟨taken, ?_, ?_, ?_, ?_, ?_, c', ?_, entries, reason⟩ <;> rw [eq] <;> rfl
  · cases held : s.axles.find (s.axles.lastOn + 1) with
    | none =>
      rw [carryEntry_again_of_none p context backed held] at taken
      have formed := considerFormation_formed { s with
        train := s.entryTrain c, pace := s.pace.take p.ownPace, axles := { s.axles with lastOn := s.axles.lastOn + 1 } }
      rw [← taken] at formed
      have frame := formed.frame
      refine ⟨by rw [frame]; rfl, by rw [frame], by rw [frame], by rw [frame], ?_, by rw [frame], fun j a _ found => ?_,
        ⟨_, taken, by rw [frame], fun j a found => ⟨a, found, rfl⟩⟩, fun _ => ⟨by rw [frame], ?_⟩, fun a found => nomatch found⟩
      · obtain ⟨f, queue⟩ := formed.queue
        rw [queue, List.length_map]
      · obtain ⟨f, find⟩ := formed.find j
        exact ⟨f a, find.trans (congrArg (Option.map _) found)⟩
      · exact (State.Counts.refl s).congr rfl rfl (by rw [frame]) (by rw [frame])
    | some r =>
      have again := refreshed_find (s := s) (c := c) (p := p)
      have here := again (s.axles.lastOn + 1)
      rw [if_pos rfl, held, Option.map_some] at here
      rw [carryEntry_again p context backed held] at taken
      obtain ⟨b, carried⟩ := handOn_carried (c := c) (p := p) here (le_refl _) rfl rfl
      generalize handOn (s.axles.lastOn + 1) p _ = m at taken carried
      obtain ⟨w, there, predicts, counts⟩ := carried.consider
      obtain ⟨queue, frame, length⟩ := carried.frame_consider
      have formed := considerFormation_formed m
      rw [← taken] at there predicts counts frame formed
      have pace : t.pace = s.pace.take p.ownPace := by rw [frame]
      have others {j : Nat} (other : j ≠ s.axles.lastOn + 1) : m.axles.find j = s.axles.find j := by
        rw [carried.others j other, again, if_neg other]
      have inPlace := carried.held
      obtain ⟨e, record⟩ : ∃ e, b =
          { (r.refresh p c.epoch (spacingBefore s.axles (s.axles.lastOn + 1) p.secondTime p.ownPace c.epoch)).takeReport
              (s.pace.take p.ownPace) p.ownPace with estimates := e } := ⟨_, carried.record⟩
      rw [pace]
      refine ⟨by rw [frame]; rfl, by rw [frame]; rfl, by rw [frame]; rfl, by rw [frame]; rfl, ?_, rfl, fun j a other found => ?_,
        ⟨m, taken, ?_, fun j a found => ?_⟩, (fun none => nomatch none), fun a found => ⟨_, there, predicts, counts, ?_⟩⟩
      · rw [frame]
        exact length.trans (List.length_map ..)
      · obtain ⟨f, find⟩ := formed.find j
        exact ⟨f a, by rw [find, others other, found, Option.map_some]⟩
      · have := carried.frame
        rw [frame]
        exact this
      · by_cases same : j = s.axles.lastOn + 1
        · subst same
          rw [held, Option.some.injEq] at found
          exact ⟨b, inPlace, by rw [record, ← found]; rfl⟩
        · exact ⟨a, by rw [others same, found], rfl⟩
      · rw [Option.some.injEq] at found
        rw [record, found]
        refine ⟨rfl, ?_, rfl, rfl, rfl, rfl, rfl, rfl, rfl, rfl, rfl, rfl, rfl, spacingBefore_of_none, fun d before =>
          spacingBefore_of_some before (sound.one_le before)⟩
        exact congrArg (AxleFlag.reweighed.mask ||| ·) (axleFlagIf_lock _)

end
